-- ==== Sys2Proof/Word.lean ====
section
/-! DEFINITION. The word types of the block: bytes, 16-bit words and the 40-bit transaction word
(00_scope.md R7 DATA_BITS and ADDR_BITS; 30_encoding.md R134). -/

namespace Sys2Proof

/-- One byte: the width of a native transaction (20_memory.md R90). -/
abbrev Byte := BitVec 8

/-- Sixteen bits: a bus address, a register pair, an A4R4G4B4 colour. -/
abbrev Word := BitVec 16

/-- A transaction word: exactly 40 bits (30_encoding.md R134). -/
abbrev TxWord := BitVec 40

end Sys2Proof
end

