-- ==== Sys2Proof/Config.lean ====
section
/-! DEFINITION. What an implementation fixes: the parameters of 00_scope.md R7, and the free values
that no rule fixes. The constants marked OPEN are opaque: nothing in Lean can evaluate them, so a
statement holds whatever they are (log 4, log 14, log 15). -/

namespace Sys2Proof

/-- A row of the DisplayMode table (10_state.md R44). -/
structure DmtRow where
  timingIndex : Nat
  resWidth : Nat
  resHeight : Nat
  pixelWidth : Nat
  pixelHeight : Nat
  stdBitmapValid : Bool
  textValid : Bool
  deriving DecidableEq, Repr, Inhabited

/-- A host window size, the result of `WINDOW_SIZE` (43_gpu_decode.md R284). -/
structure WindowSize where
  width : Nat
  height : Nat
  deriving DecidableEq, Repr, Inhabited

/-- The arguments of `WINDOW_SIZE`, in the order of 43_gpu_decode.md R284. -/
structure WindowArgs where
  timingIndex : Nat
  pixelWidth : Nat
  pixelHeight : Nat
  resWidth : Nat
  resHeight : Nat
  aspect : BitVec 2
  pixmul : BitVec 4
  vsync : Bool
  fullscreen : Bool
  deriving DecidableEq, Repr, Inhabited

/-- The decoded display state `gpu.dec` (10_state.md R46). `stdBpp` is meaningful when `stdEn` and
`stdBitmap` are set, `extBpp` when `extEn` is. -/
structure Display where
  row : Byte
  width : Nat
  height : Nat
  stdEn : Bool
  stdBitmap : Bool
  stdBpp : Nat
  extEn : Bool
  extBpp : Nat
  window : WindowSize
  deriving DecidableEq, Repr, Inhabited

/-- A palette: 256 A4R4G4B4 entries (10_state.md R41, R42). -/
abbrev Palette := Vector Word 256

/-- The glyph table: 256 glyphs of 8 rows (10_state.md R43). -/
abbrev GlyphTable := Vector (Vector Byte 8) 256

/-- An entry of `COMMAND_TABLE`: an opcode, and the number of its handler and of its self-test
(10_state.md R50). The handler of a number is the opaque function `Config.handler`; no rule runs a
self-test (46_command.md R368). -/
structure CommandEntry where
  opcode : Byte
  handler : Nat
  selfTest : Nat
  deriving DecidableEq, Repr, Inhabited

/-- The implementation parameters of 00_scope.md R7 that are data. `MEMORY_MAP` is not among them:
it is the sequence of ATTACH operations the host issues (70_reset_and_hazards.md R442; log 5).
`ramInit` lists, for the i-th attached device, the bytes of its draw that are not 0x00, and
`extInit` those of secondary graphics memory (log 6). -/
structure Params where
  stdCap : Nat
  extCap : Nat
  dmt : Vector DmtRow 256
  defaultPalette : Palette
  defaultFont : GlyphTable
  resetMode : Byte
  resetRes : Byte
  /-- `SPEED_BUDGET_NS[1..14]`: entry k is level k + 1 (40_bus.md R186). -/
  speedBudgets : Vector Nat 14
  commandTable : List CommandEntry
  ramInit : List (List Host.Cell)
  extInit : List Host.Cell
  deriving DecidableEq, Repr, Inhabited

/-- OPEN: the parameters of this implementation (00_scope.md R7). -/
opaque Config.params : Params

/-- OPEN: `WINDOW_SIZE`, a total function about which nothing is assumed (43_gpu_decode.md R284). -/
opaque Config.windowSize : WindowArgs → WindowSize

/-- FREE VALUE: what the n-th normal read of an OTHER device returns (41_device.md R211; log 15). -/
opaque Config.otherByte : Nat → Byte

/-- What a command handler may read (46_command.md R367): secondary memory, the palettes, the glyph
table, `gpu.dec`, `gpu.widthCounter` and the GPU's backing bytes, memories as lists of cells. -/
structure HandlerView where
  ext : List Host.Cell
  palette : Palette
  epalette : Palette
  glyph : GlyphTable
  dec : Display
  widthCounter : Word
  backing : List Host.Cell
  deriving DecidableEq, Repr, Inhabited

/-- What a command handler may change (46_command.md R367), and nothing else: a handler hands back
these values, so that it cannot reach any other state. -/
structure HandlerWrites where
  ext : List Host.Cell
  palette : Palette
  epalette : Palette
  glyph : GlyphTable
  blitAddr : Word
  blitPitch : Word
  blitWidth : Word
  widthCounter : Word
  deriving DecidableEq, Repr, Inhabited

/-- The codes 2 to 11 that a handler may report (46_command.md R364, R370). -/
inductive HandlerError where
  | invalidAddress | invalidHandle | invalidWidth | invalidHeight | invalidPitch | invalidData
  | invalidOffset | invalidArgument | outOfMemory | bufferOverrun
  deriving DecidableEq, Repr, Inhabited

/-- A handler's result: success with the new state, or an error code with no change (R367). -/
inductive HandlerResult where
  | success (w : HandlerWrites)
  | failure (e : HandlerError)
  deriving DecidableEq, Repr, Inhabited

/-- OPEN: the command handlers, by number. Each terminates and obeys the contract of
46_command.md R367 by its type (log 14). -/
opaque Config.handler : Nat → HandlerView → HandlerResult

end Sys2Proof
end

