-- ==== Sys2Proof/Syntax.lean ====
section
/-! DEFINITION. The operations of the block: one constructor per row of spec/opcode_table.json
(30_encoding.md R137), with the operands its word carries. What travels beside a word (R127) is not
an operand; it is in `State.beside`. -/

namespace Sys2Proof

/-- The kinds of device (10_state.md R35). -/
inductive DeviceKind where
  | ram | rom | videoRam | gpu | sys | other
  deriving DecidableEq, Repr, Inhabited

/-- The operations, in the order of the opcode table: bus transactions (format BUS), host operations
(HOST), operations at a device's port (DEV), and coprocessor commands (COP). -/
inductive Instr where
  | rd (a : Word)
  | wr (a : Word) (v : Byte)
  | rdw (a : Word)
  | wrw (a w : Word)
  | rdD (a : Word)
  | wrD (a : Word) (v : Byte)
  | rdwD (a : Word)
  | wrwD (a w : Word)
  | attach (size : BitVec 17)
  | init
  | quit
  | activate
  | deactivate
  | event
  | update (dt : BitVec 17)
  | render
  | tick
  | load
  | shutdown
  | devRd (off : Word)
  | devWr (off : Word) (v : Byte)
  | devRdD (off : Word)
  | devWrD (off : Word) (v : Byte)
  | romWr (off : Word) (v : Byte)
  | romWrD (off : Word) (v : Byte)
  | rdGpuMode
  | wrGpuMode (v : Byte)
  | rdGpuRes
  | wrGpuRes (v : Byte)
  | rdGpuOptions
  | wrGpuOptions (v : Byte)
  | rdGpuVidtopMsb
  | rdGpuVidtopLsb
  | wrGpuVidtopMsb (v : Byte)
  | wrGpuVidtopLsb (v : Byte)
  | rdGpuPalIndex
  | wrGpuPalIndex (v : Byte)
  | rdGpuPalDataMsb
  | rdGpuPalDataLsb
  | wrGpuPalDataMsb (v : Byte)
  | wrGpuPalDataLsb (v : Byte)
  | rdGpuEpalIndex
  | wrGpuEpalIndex (v : Byte)
  | rdGpuEpalDataMsb
  | rdGpuEpalDataLsb
  | wrGpuEpalDataMsb (v : Byte)
  | wrGpuEpalDataLsb (v : Byte)
  | rdGpuGlyphIndex
  | wrGpuGlyphIndex (v : Byte)
  | rdGpuGlyphRow0
  | rdGpuGlyphRow1
  | rdGpuGlyphRow2
  | rdGpuGlyphRow3
  | rdGpuGlyphRow4
  | rdGpuGlyphRow5
  | rdGpuGlyphRow6
  | rdGpuGlyphRow7
  | wrGpuGlyphRow0 (v : Byte)
  | wrGpuGlyphRow1 (v : Byte)
  | wrGpuGlyphRow2 (v : Byte)
  | wrGpuGlyphRow3 (v : Byte)
  | wrGpuGlyphRow4 (v : Byte)
  | wrGpuGlyphRow5 (v : Byte)
  | wrGpuGlyphRow6 (v : Byte)
  | wrGpuGlyphRow7 (v : Byte)
  | rdGpuBlitAddrMsb
  | rdGpuBlitAddrLsb
  | wrGpuBlitAddrMsb (v : Byte)
  | wrGpuBlitAddrLsb (v : Byte)
  | rdGpuBlitPitchMsb
  | rdGpuBlitPitchLsb
  | wrGpuBlitPitchMsb (v : Byte)
  | wrGpuBlitPitchLsb (v : Byte)
  | rdGpuBlitWidthMsb
  | rdGpuBlitWidthLsb
  | wrGpuBlitWidthMsb (v : Byte)
  | wrGpuBlitWidthLsb (v : Byte)
  | rdGpuBlitData
  | wrGpuBlitData (v : Byte)
  | wrGpuCmd (op : Byte)
  | rdGpuCmd
  | wrGpuError (v : Byte)
  | rdGpuError
  | cmdKnown (op : Byte)
  | cmdUnknown (op : Byte)
  | rdSysSpeed
  | wrSysSpeed (v : Byte)
  deriving DecidableEq, Repr, Inhabited

end Sys2Proof
end

