-- ==== Sys2Proof/WellFormed.lean ====
section
/-! DEFINITION. Which operations a word can spell (30_encoding.md R129, R131). -/

namespace Sys2Proof

/-- An operation is well formed when its operands are values the encoding admits. The widths are in
the types; the one further rule is that ATTACH's size is 0..65536 in a 17-bit field, "a value above
65536 is reserved" (30_encoding.md R129). -/
def Instr.wellFormed : Instr → Bool
  | .attach size => decide (size.toNat ≤ 65536)
  | _ => true

end Sys2Proof
end

