-- ==== Sys2Proof/Decode.lean ====
section
/-! DEFINITION. The decoder and the encoder of transaction words (30_encoding.md R122 to R134). The
decoder is total: a word that spells no operation is rejected with the reason of R131 it falls under.
Which table row a word is an encoding of depends on where it is presented (R124, R128, R134), so the
decoder takes that as an argument (log 3). -/

namespace Sys2Proof

/-- Where a word is presented: to the bus by a requester (formats BUS and HOST, 30_encoding.md R122,
R126), to a device of some kind after routing (format DEV, R124), or to the command coprocessor,
whose table knows some opcodes (format COP, R128). -/
inductive Port where
  | requester
  | device (kind : DeviceKind)
  | coprocessor (known : List Byte)
  deriving DecidableEq, Repr, Inhabited

/-- Why a word spells no operation (30_encoding.md R131). -/
inductive Reserved where
  /-- a reserved CLS (R123), or a CLS the port's format does not have (R124) -/
  | reservedClass
  /-- a nonzero RSV or RSV2 field (R122, R126) -/
  | reservedBits
  /-- a read whose DATA is nonzero (R123) -/
  | readData
  /-- a byte write whose DATA[15:8] is nonzero (R123) -/
  | writeData
  /-- a reserved HOP (R127) -/
  | reservedHop
  /-- an ATTACH size above 65536 (R129) -/
  | attachSize
  /-- a nonzero ARG on a host operation that takes none (R127) -/
  | hostArgument
  /-- at the coprocessor, a word that is not a WR_GPU_CMD (R128) -/
  | notACommand
  /-- the port names a device that is not attached (log 17) -/
  | noSuchPort
  deriving DecidableEq, Repr, Inhabited

/-! ## Fields of a word (30_encoding.md R122, R126) -/

def fieldCls (w : TxWord) : BitVec 4 := w.extractLsb' 36 4
def fieldDbg (w : TxWord) : Bool := w.getLsbD 35
def fieldRsv (w : TxWord) : BitVec 3 := w.extractLsb' 32 3
def fieldAddr (w : TxWord) : Word := w.extractLsb' 16 16
def fieldData (w : TxWord) : Word := w.extractLsb' 0 16
def fieldHostRsv (w : TxWord) : BitVec 4 := w.extractLsb' 32 4
def fieldHop (w : TxWord) : BitVec 8 := w.extractLsb' 24 8
def fieldRsv2 (w : TxWord) : BitVec 7 := w.extractLsb' 17 7
def fieldArg (w : TxWord) : BitVec 17 := w.extractLsb' 0 17

/-- `DATA[7:0]`, the value of a byte write (30_encoding.md R129). -/
def dataLow (d : Word) : Byte := d.extractLsb' 0 8

/-- `DATA[15:8]`, which a byte write leaves 0x00 (30_encoding.md R123). -/
def dataHigh (d : Word) : Byte := d.extractLsb' 8 8

/-! ## Decoding -/

/-- A read's DATA must be 0 (30_encoding.md R123). -/
def readOf (w : TxWord) (i : Instr) : Except Reserved Instr :=
  if fieldData w = 0 then .ok i else .error .readData

/-- A byte write's DATA[15:8] must be 0 (30_encoding.md R123). -/
def byteWriteOf (w : TxWord) (i : Instr) : Except Reserved Instr :=
  if dataHigh (fieldData w) = 0 then .ok i else .error .writeData

/-- Format BUS (30_encoding.md R122, R123). -/
def decodeBus (w : TxWord) : Except Reserved Instr :=
  let a := fieldAddr w
  let d := fieldData w
  let dbg := fieldDbg w
  if 4 ≤ (fieldCls w).toNat then .error .reservedClass
  else if fieldRsv w ≠ 0 then .error .reservedBits
  else match (fieldCls w).toNat with
    | 0 => readOf w (if dbg then .rdD a else .rd a)
    | 1 => byteWriteOf w (if dbg then .wrD a (dataLow d) else .wr a (dataLow d))
    | 2 => readOf w (if dbg then .rdwD a else .rdw a)
    | _ => .ok (if dbg then .wrwD a d else .wrw a d)

/-- ATTACH's size is 0..65536 (30_encoding.md R127, R129). -/
def attachOf (arg : BitVec 17) : Except Reserved Instr :=
  if arg.toNat ≤ 65536 then .ok (.attach arg) else .error .attachSize

/-- A host operation whose ARG column is 0 (30_encoding.md R127, R131). -/
def noArg (arg : BitVec 17) (i : Instr) : Except Reserved Instr :=
  if arg = 0 then .ok i else .error .hostArgument

/-- The HOP table (30_encoding.md R127). -/
def hostOperation (hop : Nat) (arg : BitVec 17) : Except Reserved Instr :=
  match hop with
  | 0x01 => attachOf arg
  | 0x02 => noArg arg .init
  | 0x03 => noArg arg .quit
  | 0x04 => noArg arg .activate
  | 0x05 => noArg arg .deactivate
  | 0x06 => noArg arg .event
  | 0x07 => .ok (.update arg)
  | 0x08 => noArg arg .render
  | 0x09 => noArg arg .tick
  | 0x0A => noArg arg .load
  | 0x0B => noArg arg .shutdown
  | _ => .error .reservedHop

/-- Format HOST (30_encoding.md R126). -/
def decodeHost (w : TxWord) : Except Reserved Instr :=
  if fieldHostRsv w ≠ 0 then .error .reservedBits
  else if fieldRsv2 w ≠ 0 then .error .reservedBits
  else hostOperation (fieldHop w).toNat (fieldArg w)

/-- The GPU register a normal read of an offset names (10_state.md R57, 30_encoding.md R125). -/
def gpuReadRow (off : Nat) : Option Instr :=
  match off with
  | 0x00 => some .rdGpuMode
  | 0x01 => some .rdGpuRes
  | 0x02 => some .rdGpuOptions
  | 0x03 => some .rdGpuVidtopMsb
  | 0x04 => some .rdGpuVidtopLsb
  | 0x05 => some .rdGpuPalIndex
  | 0x06 => some .rdGpuPalDataMsb
  | 0x07 => some .rdGpuPalDataLsb
  | 0x08 => some .rdGpuEpalIndex
  | 0x09 => some .rdGpuEpalDataMsb
  | 0x0A => some .rdGpuEpalDataLsb
  | 0x0B => some .rdGpuGlyphIndex
  | 0x0C => some .rdGpuGlyphRow0
  | 0x0D => some .rdGpuGlyphRow1
  | 0x0E => some .rdGpuGlyphRow2
  | 0x0F => some .rdGpuGlyphRow3
  | 0x10 => some .rdGpuGlyphRow4
  | 0x11 => some .rdGpuGlyphRow5
  | 0x12 => some .rdGpuGlyphRow6
  | 0x13 => some .rdGpuGlyphRow7
  | 0x14 => some .rdGpuBlitAddrMsb
  | 0x15 => some .rdGpuBlitAddrLsb
  | 0x16 => some .rdGpuBlitPitchMsb
  | 0x17 => some .rdGpuBlitPitchLsb
  | 0x18 => some .rdGpuBlitWidthMsb
  | 0x19 => some .rdGpuBlitWidthLsb
  | 0x1A => some .rdGpuBlitData
  | 0x1B => some .rdGpuCmd
  | 0x1C => some .rdGpuError
  | _ => none

/-- The GPU register a normal write of an offset names (10_state.md R57, 30_encoding.md R125). -/
def gpuWriteRow (off : Nat) (v : Byte) : Option Instr :=
  match off with
  | 0x00 => some (.wrGpuMode v)
  | 0x01 => some (.wrGpuRes v)
  | 0x02 => some (.wrGpuOptions v)
  | 0x03 => some (.wrGpuVidtopMsb v)
  | 0x04 => some (.wrGpuVidtopLsb v)
  | 0x05 => some (.wrGpuPalIndex v)
  | 0x06 => some (.wrGpuPalDataMsb v)
  | 0x07 => some (.wrGpuPalDataLsb v)
  | 0x08 => some (.wrGpuEpalIndex v)
  | 0x09 => some (.wrGpuEpalDataMsb v)
  | 0x0A => some (.wrGpuEpalDataLsb v)
  | 0x0B => some (.wrGpuGlyphIndex v)
  | 0x0C => some (.wrGpuGlyphRow0 v)
  | 0x0D => some (.wrGpuGlyphRow1 v)
  | 0x0E => some (.wrGpuGlyphRow2 v)
  | 0x0F => some (.wrGpuGlyphRow3 v)
  | 0x10 => some (.wrGpuGlyphRow4 v)
  | 0x11 => some (.wrGpuGlyphRow5 v)
  | 0x12 => some (.wrGpuGlyphRow6 v)
  | 0x13 => some (.wrGpuGlyphRow7 v)
  | 0x14 => some (.wrGpuBlitAddrMsb v)
  | 0x15 => some (.wrGpuBlitAddrLsb v)
  | 0x16 => some (.wrGpuBlitPitchMsb v)
  | 0x17 => some (.wrGpuBlitPitchLsb v)
  | 0x18 => some (.wrGpuBlitWidthMsb v)
  | 0x19 => some (.wrGpuBlitWidthLsb v)
  | 0x1A => some (.wrGpuBlitData v)
  | 0x1B => some (.wrGpuCmd v)
  | 0x1C => some (.wrGpuError v)
  | _ => none

/-- A normal read at a device's port: a register row where the device has one at the offset, else the
plain row DEV_RD (30_encoding.md R125, 41_device.md R202). -/
def deviceRead (k : DeviceKind) (off : Word) : Instr :=
  match k with
  | .gpu => (gpuReadRow off.toNat).getD (.devRd off)
  | .sys => if off = 0 then .rdSysSpeed else .devRd off
  | .ram | .rom | .videoRam | .other => .devRd off

/-- A normal write at a device's port (30_encoding.md R125; 41_device.md R202, R207). -/
def deviceWrite (k : DeviceKind) (off : Word) (v : Byte) : Instr :=
  match k with
  | .gpu => (gpuWriteRow off.toNat v).getD (.devWr off v)
  | .sys => if off = 0 then .wrSysSpeed v else .devWr off v
  | .rom => .romWr off v
  | .ram | .videoRam | .other => .devWr off v

/-- A debug write at a device's port (41_device.md R204, R208). -/
def deviceDebugWrite (k : DeviceKind) (off : Word) (v : Byte) : Instr :=
  match k with
  | .rom => .romWrD off v
  | .ram | .videoRam | .gpu | .sys | .other => .devWrD off v

/-- Format DEV: the layout of BUS, CLS only RD or WR, ADDR the device-local offset (R124). -/
def decodeDevice (k : DeviceKind) (w : TxWord) : Except Reserved Instr :=
  let off := fieldAddr w
  let v := dataLow (fieldData w)
  if 2 ≤ (fieldCls w).toNat then .error .reservedClass
  else if fieldRsv w ≠ 0 then .error .reservedBits
  else match (fieldCls w).toNat with
    | 0 => readOf w (if fieldDbg w then .devRdD off else deviceRead k off)
    | _ => byteWriteOf w (if fieldDbg w then deviceDebugWrite k off v else deviceWrite k off v)

/-- Format COP: a WR_GPU_CMD word, whose opcode the table knows or does not know (R128). -/
def decodeCommand (known : List Byte) (w : TxWord) : Except Reserved Instr :=
  match decodeDevice .gpu w with
  | .ok (.wrGpuCmd op) => .ok (if known.contains op then .cmdKnown op else .cmdUnknown op)
  | .ok _ => .error .notACommand
  | .error e => .error e

/-- The decoder: the operation a word spells at a port, or why it spells none. At the requester's
port CLS alone tells HOST from BUS (30_encoding.md R134). -/
def decode (p : Port) (w : TxWord) : Except Reserved Instr :=
  match p with
  | .requester => if fieldCls w = 8 then decodeHost w else decodeBus w
  | .device k => decodeDevice k w
  | .coprocessor known => decodeCommand known w

/-! ## Encoding, from the same tables -/

/-- Format BUS, and DEV with an offset as ADDR (30_encoding.md R122, R124), RSV = 000. -/
def busWord (cls : BitVec 4) (dbg : Bool) (addr data : Word) : TxWord :=
  cls ++ BitVec.ofBool dbg ++ 0#3 ++ addr ++ data

/-- Format HOST (30_encoding.md R126), CLS = 8, RSV and RSV2 zero. -/
def hostWord (hop : BitVec 8) (arg : BitVec 17) : TxWord :=
  8#4 ++ 0#4 ++ hop ++ 0#7 ++ arg

/-- The DATA field of a byte write: `00` above the byte (30_encoding.md R123). -/
def dataByte (v : Byte) : Word := 0#8 ++ v

/-- The word of an operation (30_encoding.md R122 to R128). -/
def encode (i : Instr) : TxWord :=
  match i with
  | .rd a => busWord 0 false a 0
  | .wr a v => busWord 1 false a (dataByte v)
  | .rdw a => busWord 2 false a 0
  | .wrw a w => busWord 3 false a w
  | .rdD a => busWord 0 true a 0
  | .wrD a v => busWord 1 true a (dataByte v)
  | .rdwD a => busWord 2 true a 0
  | .wrwD a w => busWord 3 true a w
  | .attach size => hostWord 0x01 size
  | .init => hostWord 0x02 0
  | .quit => hostWord 0x03 0
  | .activate => hostWord 0x04 0
  | .deactivate => hostWord 0x05 0
  | .event => hostWord 0x06 0
  | .update dt => hostWord 0x07 dt
  | .render => hostWord 0x08 0
  | .tick => hostWord 0x09 0
  | .load => hostWord 0x0A 0
  | .shutdown => hostWord 0x0B 0
  | .devRd off => busWord 0 false off 0
  | .devWr off v => busWord 1 false off (dataByte v)
  | .devRdD off => busWord 0 true off 0
  | .devWrD off v => busWord 1 true off (dataByte v)
  | .romWr off v => busWord 1 false off (dataByte v)
  | .romWrD off v => busWord 1 true off (dataByte v)
  | .rdGpuMode => busWord 0 false 0x0000 0
  | .wrGpuMode v => busWord 1 false 0x0000 (dataByte v)
  | .rdGpuRes => busWord 0 false 0x0001 0
  | .wrGpuRes v => busWord 1 false 0x0001 (dataByte v)
  | .rdGpuOptions => busWord 0 false 0x0002 0
  | .wrGpuOptions v => busWord 1 false 0x0002 (dataByte v)
  | .rdGpuVidtopMsb => busWord 0 false 0x0003 0
  | .rdGpuVidtopLsb => busWord 0 false 0x0004 0
  | .wrGpuVidtopMsb v => busWord 1 false 0x0003 (dataByte v)
  | .wrGpuVidtopLsb v => busWord 1 false 0x0004 (dataByte v)
  | .rdGpuPalIndex => busWord 0 false 0x0005 0
  | .wrGpuPalIndex v => busWord 1 false 0x0005 (dataByte v)
  | .rdGpuPalDataMsb => busWord 0 false 0x0006 0
  | .rdGpuPalDataLsb => busWord 0 false 0x0007 0
  | .wrGpuPalDataMsb v => busWord 1 false 0x0006 (dataByte v)
  | .wrGpuPalDataLsb v => busWord 1 false 0x0007 (dataByte v)
  | .rdGpuEpalIndex => busWord 0 false 0x0008 0
  | .wrGpuEpalIndex v => busWord 1 false 0x0008 (dataByte v)
  | .rdGpuEpalDataMsb => busWord 0 false 0x0009 0
  | .rdGpuEpalDataLsb => busWord 0 false 0x000A 0
  | .wrGpuEpalDataMsb v => busWord 1 false 0x0009 (dataByte v)
  | .wrGpuEpalDataLsb v => busWord 1 false 0x000A (dataByte v)
  | .rdGpuGlyphIndex => busWord 0 false 0x000B 0
  | .wrGpuGlyphIndex v => busWord 1 false 0x000B (dataByte v)
  | .rdGpuGlyphRow0 => busWord 0 false 0x000C 0
  | .rdGpuGlyphRow1 => busWord 0 false 0x000D 0
  | .rdGpuGlyphRow2 => busWord 0 false 0x000E 0
  | .rdGpuGlyphRow3 => busWord 0 false 0x000F 0
  | .rdGpuGlyphRow4 => busWord 0 false 0x0010 0
  | .rdGpuGlyphRow5 => busWord 0 false 0x0011 0
  | .rdGpuGlyphRow6 => busWord 0 false 0x0012 0
  | .rdGpuGlyphRow7 => busWord 0 false 0x0013 0
  | .wrGpuGlyphRow0 v => busWord 1 false 0x000C (dataByte v)
  | .wrGpuGlyphRow1 v => busWord 1 false 0x000D (dataByte v)
  | .wrGpuGlyphRow2 v => busWord 1 false 0x000E (dataByte v)
  | .wrGpuGlyphRow3 v => busWord 1 false 0x000F (dataByte v)
  | .wrGpuGlyphRow4 v => busWord 1 false 0x0010 (dataByte v)
  | .wrGpuGlyphRow5 v => busWord 1 false 0x0011 (dataByte v)
  | .wrGpuGlyphRow6 v => busWord 1 false 0x0012 (dataByte v)
  | .wrGpuGlyphRow7 v => busWord 1 false 0x0013 (dataByte v)
  | .rdGpuBlitAddrMsb => busWord 0 false 0x0014 0
  | .rdGpuBlitAddrLsb => busWord 0 false 0x0015 0
  | .wrGpuBlitAddrMsb v => busWord 1 false 0x0014 (dataByte v)
  | .wrGpuBlitAddrLsb v => busWord 1 false 0x0015 (dataByte v)
  | .rdGpuBlitPitchMsb => busWord 0 false 0x0016 0
  | .rdGpuBlitPitchLsb => busWord 0 false 0x0017 0
  | .wrGpuBlitPitchMsb v => busWord 1 false 0x0016 (dataByte v)
  | .wrGpuBlitPitchLsb v => busWord 1 false 0x0017 (dataByte v)
  | .rdGpuBlitWidthMsb => busWord 0 false 0x0018 0
  | .rdGpuBlitWidthLsb => busWord 0 false 0x0019 0
  | .wrGpuBlitWidthMsb v => busWord 1 false 0x0018 (dataByte v)
  | .wrGpuBlitWidthLsb v => busWord 1 false 0x0019 (dataByte v)
  | .rdGpuBlitData => busWord 0 false 0x001A 0
  | .wrGpuBlitData v => busWord 1 false 0x001A (dataByte v)
  | .wrGpuCmd op => busWord 1 false 0x001B (dataByte op)
  | .rdGpuCmd => busWord 0 false 0x001B 0
  | .wrGpuError v => busWord 1 false 0x001C (dataByte v)
  | .rdGpuError => busWord 0 false 0x001C 0
  | .cmdKnown op => busWord 1 false 0x001B (dataByte op)
  | .cmdUnknown op => busWord 1 false 0x001B (dataByte op)
  | .rdSysSpeed => busWord 0 false 0x0000 0
  | .wrSysSpeed v => busWord 1 false 0x0000 (dataByte v)

/-- Which rows of the opcode table an operation belongs to: the requester's (formats BUS and HOST), the
generic ones at a device, the GPU's or the SYS device's registers, the coprocessor's. -/
inductive RowKind where
  | requester
  | plainRead (off : Word)
  | plainWrite (off : Word) (v : Byte)
  | debugRead
  | debugWrite
  | romWrite
  | romDebugWrite
  | gpuRegister
  | sysRegister
  | known (op : Byte)
  | unknown (op : Byte)
  deriving DecidableEq, Repr

/-- The rows of an operation. -/
def Instr.rowKind : Instr → RowKind
  | .rd _ | .wr _ _ | .rdw _ | .wrw _ _ | .rdD _ | .wrD _ _ | .rdwD _ | .wrwD _ _ | .attach _
  | .init | .quit | .activate | .deactivate | .event | .update _ | .render | .tick | .load
  | .shutdown => .requester
  | .devRd off => .plainRead off
  | .devWr off v => .plainWrite off v
  | .devRdD _ => .debugRead
  | .devWrD _ _ => .debugWrite
  | .romWr _ _ => .romWrite
  | .romWrD _ _ => .romDebugWrite
  | .rdGpuMode | .wrGpuMode _ | .rdGpuRes | .wrGpuRes _ | .rdGpuOptions | .wrGpuOptions _
  | .rdGpuVidtopMsb | .rdGpuVidtopLsb | .wrGpuVidtopMsb _ | .wrGpuVidtopLsb _
  | .rdGpuPalIndex | .wrGpuPalIndex _ | .rdGpuPalDataMsb | .rdGpuPalDataLsb
  | .wrGpuPalDataMsb _ | .wrGpuPalDataLsb _ | .rdGpuEpalIndex | .wrGpuEpalIndex _
  | .rdGpuEpalDataMsb | .rdGpuEpalDataLsb | .wrGpuEpalDataMsb _ | .wrGpuEpalDataLsb _
  | .rdGpuGlyphIndex | .wrGpuGlyphIndex _ | .rdGpuGlyphRow0 | .rdGpuGlyphRow1
  | .rdGpuGlyphRow2 | .rdGpuGlyphRow3 | .rdGpuGlyphRow4 | .rdGpuGlyphRow5 | .rdGpuGlyphRow6
  | .rdGpuGlyphRow7 | .wrGpuGlyphRow0 _ | .wrGpuGlyphRow1 _ | .wrGpuGlyphRow2 _
  | .wrGpuGlyphRow3 _ | .wrGpuGlyphRow4 _ | .wrGpuGlyphRow5 _ | .wrGpuGlyphRow6 _
  | .wrGpuGlyphRow7 _ | .rdGpuBlitAddrMsb | .rdGpuBlitAddrLsb | .wrGpuBlitAddrMsb _
  | .wrGpuBlitAddrLsb _ | .rdGpuBlitPitchMsb | .rdGpuBlitPitchLsb | .wrGpuBlitPitchMsb _
  | .wrGpuBlitPitchLsb _ | .rdGpuBlitWidthMsb | .rdGpuBlitWidthLsb | .wrGpuBlitWidthMsb _
  | .wrGpuBlitWidthLsb _ | .rdGpuBlitData | .wrGpuBlitData _ | .wrGpuCmd _ | .rdGpuCmd
  | .wrGpuError _ | .rdGpuError => .gpuRegister
  | .cmdKnown op => .known op
  | .cmdUnknown op => .unknown op
  | .rdSysSpeed => .sysRegister
  | .wrSysSpeed _ => .sysRegister

/-- The operations that a word presented at a port can spell: the rows of that port's format and, at
a device, of its kind (30_encoding.md R124, R125, R128). -/
def Port.admits (p : Port) (i : Instr) : Bool :=
  match p, i.rowKind with
  | .requester, .requester => true
  | .device k, .plainRead off => deviceRead k off == .devRd off
  | .device k, .plainWrite off v => deviceWrite k off v == .devWr off v
  | .device _, .debugRead => true
  | .device k, .debugWrite => k != .rom
  | .device k, .romWrite => k == .rom
  | .device k, .romDebugWrite => k == .rom
  | .device k, .gpuRegister => k == .gpu
  | .device k, .sysRegister => k == .sys
  | .coprocessor known, .known op => known.contains op
  | .coprocessor known, .unknown op => !known.contains op
  | _, _ => false

/-! ## A bare word of the opcode table (log 3) -/

/-- The port a word of the opcode table is taken at when nothing else says where it is presented:
that of the most specific row whose pattern it matches. A normal RD or WR word whose ADDR is one of
the GPU's register offsets matches a GPU register row, which fixes all of ADDR; every other word is
a requester's. -/
def tablePort (w : TxWord) : Port :=
  if (fieldCls w).toNat ≤ 1 && !fieldDbg w && decide ((fieldAddr w).toNat ≤ 0x1C) then
    .device .gpu
  else .requester

/-- The instruction the decoder reads from a bare word of the opcode table; every row has 40 bits
(30_encoding.md R134), so a longer pattern is none of its words. -/
def decodeTableWord (nbits w : Nat) : Option Instr :=
  if nbits ≤ 40 then
    match decode (tablePort (BitVec.ofNat 40 w)) (BitVec.ofNat 40 w) with
    | .ok i => some i
    | .error _ => none
  else none

end Sys2Proof
end

