-- ==== Sys2Proof/Machine/Memory.lean ====
section
/-! DEFINITION. Byte memory as a list of cells in one canonical form: addresses strictly rising and
no cell equal to what an unlisted address reads as. It backs every device (10_state.md R35) and
secondary graphics memory (R48). -/

namespace Sys2Proof.Machine

/-- A byte memory: its cells (offset, byte), offsets strictly rising, none of them 0x00. -/
abbrev Memory := List Host.Cell

/-- What an unlisted address reads as. GPU and SYS backing bytes start at 0x00 (41_device.md R205).
The RAM_INIT draw of the other memories is listed from the parameters when the memory is made, so
this byte is not a claim about memory that nothing has written (log 6). -/
def unlistedByte : Byte := 0x00

/-- The byte at an address. -/
def Memory.read (m : Memory) (a : Nat) : Byte :=
  match m with
  | [] => unlistedByte
  | (b, w) :: rest => if a = b then w else Memory.read rest a

/-- Store a byte, keeping the canonical form: storing the unlisted byte removes the cell. -/
def Memory.write (m : Memory) (a : Nat) (v : Byte) : Memory :=
  match m with
  | [] => if v = unlistedByte then [] else [(a, v)]
  | (b, w) :: rest =>
    if a < b then (if v = unlistedByte then (b, w) :: rest else (a, v) :: (b, w) :: rest)
    else if a = b then (if v = unlistedByte then rest else (a, v) :: rest)
    else (b, w) :: Memory.write rest a v

/-- The canonical form holds. -/
def Memory.wf (m : Memory) : Bool :=
  match m with
  | [] => true
  | (a, v) :: rest => v != unlistedByte && rest.all (fun c => decide (a < c.1)) && Memory.wf rest

/-- Every listed address is below a bound. -/
def Memory.below (m : Memory) (bound : Nat) : Bool := m.all (fun c => decide (c.1 < bound))

/-- The memory of `size` bytes that a list of cells describes: cells outside it are dropped, and of
two cells at one address the later counts. -/
def Memory.ofCells (size : Nat) (cells : List Host.Cell) : Memory :=
  cells.foldl (fun m c => if c.1 < size then m.write c.1 c.2 else m) []

end Sys2Proof.Machine
end

