-- ==== Sys2Proof/Machine/State.lean ====
section
/-! DEFINITION. The state of the block (10_state.md), the reasons a step can stop, and the state after
reset (70_reset_and_hazards.md R441). -/

namespace Sys2Proof.Machine

/-- Why an operation has no step. -/
inductive Fault where
  /-- Raised by every operation on a state in which an attach overflowed: a state with `fault` set
  admits no further step (60_exceptions.md R401, R402). Safe: nothing follows. -/
  | attachOverflow
  /-- Raised by every operation on a state in which host surface creation failed (60_exceptions.md
  R401, R402). Safe. -/
  | surfaceFailure
  /-- Raised by an operation outside the phases that allow it: it has no step
  (70_reset_and_hazards.md R447). Safe. -/
  | notAdmitted
  /-- Raised by a DEV or COP word for a device that is not attached or an offset outside its range:
  no such byte exists (10_state.md R35; log 17). Safe: the bus never routes such a word. -/
  | noSuchByte
  deriving DecidableEq, Repr

/-- Why an input is refused: it is no operation, or not one of a machine the spec describes. -/
inductive Refusal where
  /-- An instruction with no meaning yet; raised by `exec` alone. -/
  | notModelled (mnemonic : String)
  /-- Raised by the step on a word that spells no operation (30_encoding.md R131). Safe. -/
  | reservedWord (why : Reserved)
  /-- Raised by ATTACH and INIT on a configuration that breaks a constraint of 00_scope.md R8: "a
  model refuses a configuration that breaks one" (log 5). Safe. -/
  | configuration
  /-- Raised by a DEV or COP row at a device, offset or opcode whose word is an encoding of another
  row (30_encoding.md R125, R128; log 17). Safe: the decoder never gives such a pair. -/
  | otherRow
  /-- Raised by the step when no agent has presented an operation (log 9). Safe. -/
  | noRequest
  deriving DecidableEq, Repr

/-- The reason of a fatal error (10_state.md R55). -/
inductive FatalReason where
  | attachOverflow | surfaceFailure
  deriving DecidableEq, Repr

/-- The lifecycle phase (10_state.md R54). -/
inductive Phase where
  | construct | ready | run | done
  deriving DecidableEq, Repr

/-- An AddressRange (10_state.md R33). -/
structure AddressRange where
  base : Nat
  size : Nat
  deriving DecidableEq, Repr

/-- A device's state (10_state.md R35). `backing` holds `range.size` bytes by device-local offset. -/
structure Device where
  kind : DeviceKind
  range : AddressRange
  backing : Memory
  deriving DecidableEq, Repr

/-- The GPU's internal state outside its backing bytes (10_state.md R41 to R48). -/
structure GpuState where
  palette : Palette
  epalette : Palette
  glyph : GlyphTable
  /-- `gpu.acc`, the last accepted pair (R45) -/
  accMode : Byte
  accRes : Byte
  dec : Display
  widthCounter : Word
  ext : Memory
  deriving DecidableEq, Repr

/-- The host frame surface (10_state.md R56): pixel (x, y) is entry `y * width + x`. -/
structure Frame where
  width : Nat
  height : Nat
  pixels : List Word
  deriving DecidableEq, Repr

/-- A response of a transaction (30_encoding.md R123): a byte for RD, 16 bits for RDW. -/
inductive Response where
  | byte (v : Byte)
  | word (w : Word)
  deriving DecidableEq, Repr

/-- A host event (40_bus.md R178). No rule reads it. -/
inductive HostEvent where
  | windowResize (width height : Nat)
  | windowClose
  | other (code : Nat)
  deriving DecidableEq, Repr

/-- A normal bus transaction of the excluded CPU core (40_bus.md R175). -/
inductive CpuTransaction where
  | rd (a : Word)
  | wr (a : Word) (v : Byte)
  | rdw (a : Word)
  | wrw (a w : Word)
  deriving DecidableEq, Repr

/-- The results of the host's four create calls (44_gpu_render.md R332), a free input (R336; log 16). -/
structure SurfaceResults where
  window : Bool
  standardTexture : Bool
  extendedTexture : Bool
  renderTarget : Bool
  deriving DecidableEq, Repr

/-- What travels beside a word (30_encoding.md R127) or is a free input of its operation: the device
description of ATTACH, of which the rules read the kind (41_device.md R205), the event of EVENT, the
record text of LOAD (the bytes of the file), the transactions and the measured interval of TICK, the
create results of ACTIVATE and UPDATE. -/
structure Beside where
  dev : DeviceKind
  event : HostEvent
  text : List Byte
  cpu : List CpuTransaction
  interval : Nat
  surfaces : SurfaceResults
  deriving DecidableEq, Repr

/-- Where a request is presented: to the bus, to the port of the i-th device, or to the coprocessor
of the i-th device (30_encoding.md R122, R124, R128; log 2). -/
inductive RequestPort where
  | requester
  | device (i : Nat)
  | coprocessor (i : Nat)
  deriving DecidableEq, Repr

/-- An operation an agent presents. `split` says how many other entries of the inbox fall between its
atomic steps (20_memory.md R102): the first number between the first two, and so on; what is left
when the numbers run out runs in one step of the model (log 10). -/
structure Request where
  word : TxWord
  port : RequestPort
  split : List Nat
  beside : Beside
  deriving DecidableEq, Repr

/-- The callbacks of the fan-outs that other agents' steps can interrupt (40_bus.md R182). Init is not
one: in phase CONSTRUCT no other agent has an admitted operation (log 12). -/
inductive Callback where
  | quit
  | activate
  | deactivate
  | update (dt : BitVec 17)
  | event (e : HostEvent)
  | render
  deriving DecidableEq, Repr

/-- What an operation assigns after its callbacks or transactions (40_bus.md R172, R173, R175, R177). -/
inductive Closing where
  | enterRun
  | clearDirty
  | finish
  | interval (n : Nat)
  deriving DecidableEq, Repr

/-- The atomic steps an operation consists of (20_memory.md R102): a byte transaction, a callback of the
i-th device, or an assignment that follows them. A word read holds its first byte until its second. -/
inductive AtomicStep where
  | read (a : Word) (dbg : Bool)
  | readHigh (a : Word) (dbg : Bool)
  | readLow (a : Word) (dbg : Bool)
  | write (a : Word) (v : Byte) (dbg : Bool)
  | callback (c : Callback) (k : DeviceKind) (i : Nat)
  | close (c : Closing)
  deriving DecidableEq, Repr

/-- An operation in progress: which one it is, its atomic steps to come, the byte a word read holds, what
travels beside its word, and how many other entries fall between its further steps. -/
structure Ongoing where
  op : Instr
  steps : List AtomicStep
  held : Byte
  beside : Beside
  split : List Nat
  deriving DecidableEq, Repr

/-- An entry of the inbox: a new operation, or the next atomic step of one in progress. -/
inductive Entry where
  | request (r : Request)
  | resume (o : Ongoing)
  deriving DecidableEq, Repr

/-- The state of the block (10_state.md R31). The fields after `achievedInterval` are the model's own
(logs 2, 13, 15). -/
structure State where
  /-- the static parameters and tables (00_scope.md R7; 10_state.md R44, R50) -/
  cfg : Params
  /-- `bus.nextFree` (R32); `bus.ranges` is the view `State.ranges` -/
  nextFree : Nat
  devs : List Device
  gpu : GpuState
  envDirty : Bool
  running : Bool
  phase : Phase
  fault : Option FatalReason
  frame : Frame
  achievedInterval : Nat
  /-- the operations presented and those in progress, in the order they take their next step: the
  interleaving (20_memory.md R102) -/
  inbox : List Entry
  /-- what travels beside the word being run -/
  beside : Beside
  /-- the device a DEV or COP word being run was routed to -/
  target : Nat
  /-- the responses of the step, in order -/
  resp : List Response
  /-- how many fresh draws have been made (41_device.md R211) -/
  draws : Nat
  deriving DecidableEq, Repr

/-- `bus.ranges` (10_state.md R32): the i-th range belongs to the i-th device. -/
def State.ranges (s : State) : List AddressRange := s.devs.map (·.range)

/-- Bytes of secondary graphics memory, `EXT_MEM_SIZE` (00_scope.md R7; 10_state.md R48). -/
def extMemSize : Nat := 65536

/-- Nothing beside a word. -/
def Beside.empty : Beside :=
  { dev := .ram
    event := .other 0
    text := []
    cpu := []
    interval := 0
    surfaces :=
      { window := true, standardTexture := true, extendedTexture := true, renderTarget := true } }

/-- `gpu` at construction (70_reset_and_hazards.md R441): the counter and `gpu.acc` are 0 and `gpu.ext`
is the draw. The palettes, the glyphs and `gpu.dec` are unspecified there; their values here are the
model's choice (DESIGN CHOICE, log 7) and no step reads them before Init. -/
def GpuState.reset : GpuState :=
  { palette := Vector.replicate 256 0
    epalette := Vector.replicate 256 0
    glyph := Vector.replicate 256 (Vector.replicate 8 0)
    accMode := 0x00
    accRes := 0x00
    dec :=
      { row := 0, width := 0, height := 0, stdEn := false, stdBitmap := false, stdBpp := 1
        extEn := false, extBpp := 1, window := { width := 0, height := 0 } }
    widthCounter := 0
    ext := Memory.ofCells extMemSize Config.params.extInit }

/-- The machine after reset: construction (70_reset_and_hazards.md R441), the state the model starts
in. The frame and the interval are unspecified there (DESIGN CHOICE, log 7). -/
def State.reset : State :=
  { cfg := Config.params
    nextFree := 0
    devs := []
    gpu := GpuState.reset
    envDirty := false
    running := false
    phase := .construct
    fault := none
    frame := { width := 0, height := 0, pixels := [] }
    achievedInterval := 0
    inbox := []
    beside := Beside.empty
    target := 0
    resp := []
    draws := 0 }

end Sys2Proof.Machine
end

