-- ==== Sys2Proof/Machine/Operands.lean ====
section
/-! DEFINITION. Operand forms (30_encoding.md R129, R130): byte order, register fields, colours, depth
codes, packed pixels and hexadecimal digits. -/

namespace Sys2Proof.Machine

/-! ## Bytes and words (00_scope.md R9, R10) -/

/-- `BE16(hi, lo) = hi * 256 + lo`. -/
def be16 (hi lo : Byte) : Word := hi ++ lo

/-- `hi8(w) = w[15:8]`. -/
def hi8 (w : Word) : Byte := w.extractLsb' 8 8

/-- `lo8(w) = w[7:0]`. -/
def lo8 (w : Word) : Byte := w.extractLsb' 0 8

/-- `OPEN_BUS`, the byte a read of an unmapped address returns (00_scope.md R7, 40_bus.md R165). -/
def openBus : Byte := 0xCC

/-- `BUS_SIZE` (00_scope.md R7). -/
def busSize : Nat := 65536

/-! ## Tables of 256 entries, indexed by a byte -/

/-- Entry `i` of a table. -/
def entry {α : Type} (t : Vector α 256) (i : Byte) : α := t[i.toNat]'i.isLt

/-- The table with entry `i` replaced. -/
def setEntry {α : Type} (t : Vector α 256) (i : Byte) (v : α) : Vector α 256 := t.set i.toNat v i.isLt

/-! ## GPU_MODE, GPU_OPTIONS, SYS_SPEED -/

/-- The fields of GPU_MODE (10_state.md R58); bit 4 is reserved and no field. -/
structure ModeFields where
  extEn : Bool
  extDepth : BitVec 2
  stdEn : Bool
  stdBitmap : Bool
  stdDepth : BitVec 2
  deriving DecidableEq, Repr

/-- The fields of a mode byte (10_state.md R58). -/
def modeFields (m : Byte) : ModeFields :=
  { extEn := m.getLsbD 7
    extDepth := m.extractLsb' 5 2
    stdEn := m.getLsbD 3
    stdBitmap := m.getLsbD 2
    stdDepth := m.extractLsb' 0 2 }

/-- The mode byte of some fields, bit 4 zero (10_state.md R58, 43_gpu_decode.md R286). -/
def modeByte (f : ModeFields) : Byte :=
  BitVec.ofBool f.extEn ++ f.extDepth ++ 0#1 ++ BitVec.ofBool f.stdEn ++ BitVec.ofBool f.stdBitmap ++
    f.stdDepth

/-- Bits per pixel of a depth code, `2^c` (10_state.md R59). -/
def depthBpp (c : BitVec 2) : Nat := 2 ^ c.toNat

/-- The colours of a depth code, `2^(2^c)` (10_state.md R59). -/
def depthColours (c : BitVec 2) : Nat := 2 ^ depthBpp c

/-- The depth code of a number of bits per pixel, `log2 bpp` for 1, 2, 4, 8 (10_state.md R59). -/
def depthCode (bpp : Nat) : BitVec 2 :=
  if bpp = 8 then 3 else if bpp = 4 then 2 else if bpp = 2 then 1 else 0

/-- GPU_OPTIONS fields (10_state.md R61). -/
def optionFullscreen (o : Byte) : Bool := o.getLsbD 7
def optionVsync (o : Byte) : Bool := o.getLsbD 6
def optionAspect (o : Byte) : BitVec 2 := o.extractLsb' 4 2
def optionPixmul (o : Byte) : BitVec 4 := o.extractLsb' 0 4

/-- SYS_SPEED.LEVEL (10_state.md R76). -/
def speedLevel (v : Byte) : BitVec 4 := v.extractLsb' 0 4

/-! ## Offsets of the GPU's and the SYS device's registers (10_state.md R57, R75) -/

abbrev regMode : Nat := 0x00
abbrev regRes : Nat := 0x01
abbrev regOptions : Nat := 0x02
/-- GPU_VIDTOP, MSB; the LSB is the next byte. -/
abbrev regVidtop : Nat := 0x03
abbrev regPalIndex : Nat := 0x05
abbrev regEpalIndex : Nat := 0x08
abbrev regGlyphIndex : Nat := 0x0B
/-- GPU_BLIT_ADDR, MSB; the LSB is the next byte. -/
abbrev regBlitAddr : Nat := 0x14
/-- GPU_BLIT_PITCH, MSB; the LSB is the next byte. -/
abbrev regBlitPitch : Nat := 0x16
/-- GPU_BLIT_WIDTH, MSB; the LSB is the next byte. -/
abbrev regBlitWidth : Nat := 0x18
abbrev regCmd : Nat := 0x1B
abbrev regError : Nat := 0x1C
/-- SYS_SPEED, of the SYS device. -/
abbrev regSpeed : Nat := 0x00

/-- The bytes the GPU's register block takes, its OnAttach result (44_gpu_render.md R331). -/
def gpuBlockSize : Nat := 32

/-- The bytes the SYS device's block takes, its OnAttach result (40_bus.md R185). -/
def sysBlockSize : Nat := 16

/-! ## Colours (10_state.md R64) -/

def alpha (c : Word) : BitVec 4 := c.extractLsb' 12 4
def red (c : Word) : BitVec 4 := c.extractLsb' 8 4
def green (c : Word) : BitVec 4 := c.extractLsb' 4 4
def blue (c : Word) : BitVec 4 := c.extractLsb' 0 4

/-- An A4R4G4B4 value from its fields. -/
def argb (a r g b : BitVec 4) : Word := a ++ r ++ g ++ b

/-! ## Pixels (44_gpu_render.md R315, R317) -/

/-- The palette index of pixel `p` at `bpp` bits per pixel, the leftmost pixel of a byte in its most
significant bits (44_gpu_render.md R315). -/
def unpack (fetch : Nat → Byte) (bpp p : Nat) : Nat :=
  ((fetch (p * bpp / 8)).toNat >>> (8 - bpp - p * bpp % 8)) % 2 ^ bpp

/-- Byte `k` of the packed buffer in which pixel `p` occupies the field that `unpack` reads
(44_gpu_render.md R322): the indices of its `8 / bpp` pixels, the first most significant. -/
def packByte (idx : Nat → Nat) (bpp k : Nat) : Byte :=
  BitVec.ofNat 8 (((List.range (8 / bpp)).map
    (fun j => idx (k * (8 / bpp) + j) % 2 ^ bpp * 2 ^ (8 - bpp - j * bpp))).sum)

/-- The foreground index of a text cell's attribute byte, bits 7:4 (44_gpu_render.md R317). -/
def cellForeground (cell : Byte) : Byte := 0#4 ++ cell.extractLsb' 4 4

/-- The background index of a text cell's attribute byte, bits 3:0 (44_gpu_render.md R317). -/
def cellBackground (cell : Byte) : Byte := 0#4 ++ cell.extractLsb' 0 4

/-- `CELL_BYTES` (00_scope.md R7, 44_gpu_render.md R317). -/
def cellBytes : Nat := 2

/-- The bytes a text screen needs: one cell per 8x8 glyph (43_gpu_decode.md R291). -/
def textBytes (w h : Nat) : Nat := w / 8 * (h / 8) * cellBytes

/-! ## Hexadecimal text (47_boot_image.md R387) -/

/-- The value of an ASCII hexadecimal digit `0-9`, `A-F` or `a-f`. -/
def hexDigit (c : Byte) : Option Nat :=
  let n := c.toNat
  if 0x30 ≤ n ∧ n ≤ 0x39 then some (n - 0x30)
  else if 0x41 ≤ n ∧ n ≤ 0x46 then some (n - 0x41 + 10)
  else if 0x61 ≤ n ∧ n ≤ 0x66 then some (n - 0x61 + 10)
  else none

/-- Two digits per byte, the more significant first; none where a character is no digit or one is
left over. -/
def hexBytes : List Byte → Option (List Byte)
  | [] => some []
  | [_] => none
  | h :: l :: rest =>
    match hexDigit h, hexDigit l, hexBytes rest with
    | some x, some y, some bs => some (BitVec.ofNat 8 (x * 16 + y) :: bs)
    | _, _, _ => none

end Sys2Proof.Machine
end

