-- ==== Sys2Proof/Machine/Ops.lean ====
section
/-! DEFINITION. The named operations over devices and registers: backing bytes, routing, responses,
admission, and the taking of a fatal error. Every access of an instruction goes through these. -/

namespace Sys2Proof.Machine

/-! ## Backing bytes (10_state.md R35; 00_scope.md R11 `backing_d[off]`) -/

/-- `backing_d[off]` of the i-th device. -/
def State.devByte (s : State) (i off : Nat) : Byte :=
  match s.devs[i]? with
  | some d => d.backing.read off
  | none => unlistedByte

/-- A device with one backing byte stored. -/
def Device.setByte (d : Device) (off : Nat) (v : Byte) : Device :=
  { d with backing := d.backing.write off v }

/-- `backing_d[off] <- v` of the i-th device. -/
def State.setDevByte (s : State) (i off : Nat) (v : Byte) : State :=
  { s with devs := s.devs.modify i (fun d => d.setByte off v) }

/-- A 16-bit register: its high byte at `off`, its low byte at `off + 1` (20_memory.md R84). -/
def State.devWord (s : State) (i off : Nat) : Word := be16 (s.devByte i off) (s.devByte i (off + 1))

/-- Store both bytes of a 16-bit register. -/
def State.setDevWord (s : State) (i off : Nat) (w : Word) : State :=
  (s.setDevByte i off (hi8 w)).setDevByte i (off + 1) (lo8 w)

/-! ## Secondary graphics memory (00_scope.md R11 `ExtRead`, `ExtWrite`) -/

/-- `ExtRead(a)`. -/
def State.extRead (s : State) (a : Nat) : Byte := s.gpu.ext.read (a % extMemSize)

/-- `ExtWrite(a, v)`. -/
def State.extWrite (s : State) (a : Nat) (v : Byte) : State :=
  { s with gpu := { s.gpu with ext := s.gpu.ext.write (a % extMemSize) v } }

/-! ## Devices by kind (00_scope.md R8(a): one GPU, one VIDEO_RAM, one SYS) -/

/-- The VIDEO_RAM device, whose backing is the standard plane's buffer (10_state.md R51). -/
def State.videoRam (s : State) : Option Device := s.devs.find? (fun d => d.kind == .videoRam)

/-- `VIDEO_BASE` (00_scope.md R7). Without a VIDEO_RAM device, a configuration that INIT refuses, it
is 0 (log 5). -/
def State.videoBase (s : State) : Nat :=
  match s.videoRam with
  | some d => d.range.base
  | none => 0

/-! ## Routing (40_bus.md R163) -/

/-- The half-open interval test on naturals. -/
def AddressRange.contains (r : AddressRange) (a : Nat) : Bool :=
  decide (r.base ≤ a) && decide (a < r.base + r.size)

/-- `select(a)`: the device whose range contains the address. -/
def State.select (s : State) (a : Word) : Option Nat :=
  s.devs.findIdx? (fun d => d.range.contains a.toNat)

/-! ## Responses and draws -/

/-- Give the requester a response (30_encoding.md R123). -/
def State.respond (s : State) (r : Response) : State := { s with resp := s.resp ++ [r] }

/-- A fresh draw (00_scope.md R11 `draw()`, 41_device.md R211): a free value (log 15). -/
def State.drawByte (s : State) : Byte × State :=
  (Config.otherByte s.draws, { s with draws := s.draws + 1 })

/-! ## Fatal errors: the block's one way to take an error out of a step (60_exceptions.md R401) -/

/-- `raise Fatal(reason)`: `fault` is set and everything else is left as it was. -/
def State.raise (s : State) (r : FatalReason) : State := { s with fault := some r }

/-- What a state in FAULT answers to every operation. -/
def FatalReason.stop : FatalReason → Fault
  | .attachOverflow => .attachOverflow
  | .surfaceFailure => .surfaceFailure

/-! ## Admission (70_reset_and_hazards.md R447) -/

/-- Run an operation where it is admitted: no operation is while `fault` is set, and outside its
phases it has no step. -/
def State.whenAdmitted (s : State) (ok : Bool) (act : Host.Outcome State Fault Refusal) :
    Host.Outcome State Fault Refusal :=
  match s.fault with
  | some r => .fault r.stop
  | none => if ok then act else .fault .notAdmitted

/-- Bus transactions, ACTIVATE and DEACTIVATE: `phase` in {READY, RUN} (R447). -/
def State.busOpen (s : State) : Bool := s.phase == .ready || s.phase == .run

/-- TICK, UPDATE, EVENT and RENDER: `phase = RUN` and `running = 1` (R447). -/
def State.loopOpen (s : State) : Bool := s.phase == .run && s.running

/-! ## Operations at a device's port (30_encoding.md R124) -/

/-- Run an operation of a register row at the device a DEV word was routed to, which must be of the
row's kind (30_encoding.md R125). -/
def State.atDevice (s : State) (k : DeviceKind) (act : Nat → State → State) :
    Host.Outcome State Fault Refusal :=
  s.whenAdmitted s.busOpen
    (match s.devs[s.target]? with
     | some d => if d.kind = k then .next (act s.target s) else .refused .otherRow
     | none => .fault .noSuchByte)

/-- Run an operation of a generic row at an offset of the device a DEV word was routed to, where the
row is the word's there. -/
def State.atByte (s : State) (off : Word) (row : Device → Bool) (act : Nat → Device → State → State) :
    Host.Outcome State Fault Refusal :=
  s.whenAdmitted s.busOpen
    (match s.devs[s.target]? with
     | some d =>
       if off.toNat < d.range.size then
         (if row d then .next (act s.target d s) else .refused .otherRow)
       else .fault .noSuchByte
     | none => .fault .noSuchByte)

/-- A read of a backing byte answered to the requester (41_device.md R202). -/
def State.answerByte (s : State) (i off : Nat) : State := s.respond (.byte (s.devByte i off))

/-! ## Fan-out (40_bus.md R182) -/

/-- Call a callback on each device in attach order; a fatal error ends the fan-out at once, and the
devices after the failing one get no callback (60_exceptions.md R401). -/
def fanOutFrom (callback : DeviceKind → Nat → State → State) :
    List DeviceKind → Nat → State → State
  | [], _, s => s
  | k :: rest, i, s =>
    match s.fault with
    | some _ => s
    | none => fanOutFrom callback rest (i + 1) (callback k i s)

/-- The fan-out over all attached devices. -/
def State.fanOut (s : State) (callback : DeviceKind → Nat → State → State) : State :=
  fanOutFrom callback (s.devs.map (·.kind)) 0 s

/-- The no-op default of every callback (41_device.md R210). -/
def noCallback (_ : DeviceKind) (_ : Nat) (s : State) : State := s

end Sys2Proof.Machine
end

