-- ==== Sys2Proof/Machine/Flags.lean ====
section
/-! DEFINITION. The block's flags: the environment dirty flag (10_state.md R52) and the sticky error
register (46_command.md R370 to R373). -/

namespace Sys2Proof.Machine

/-- The codes GPU_ERROR holds (46_command.md R370). -/
inductive ErrorCode where
  | none
  | invalidCommand
  | handler (e : HandlerError)
  | bufferOverrun
  deriving DecidableEq, Repr

/-- A handler's code, 2 to 11 (46_command.md R370). -/
def handlerCode : HandlerError → Byte
  | .invalidAddress => 2
  | .invalidHandle => 3
  | .invalidWidth => 4
  | .invalidHeight => 5
  | .invalidPitch => 6
  | .invalidData => 7
  | .invalidOffset => 8
  | .invalidArgument => 9
  | .outOfMemory => 10
  | .bufferOverrun => 11

/-- The numeric value of a code (46_command.md R370). -/
def errorCode : ErrorCode → Byte
  | .none => 0
  | .invalidCommand => 1
  | .handler e => handlerCode e
  | .bufferOverrun => 11

/-- `setError(code)` on the i-th device, a GPU: the last error wins (46_command.md R371). -/
def State.setError (s : State) (i : Nat) (c : ErrorCode) : State := s.setDevByte i regError (errorCode c)

/-- Set `envDirty`: a mode-affecting write (10_state.md R52). -/
def State.markDirty (s : State) : State := { s with envDirty := true }

/-- Clear `envDirty`: the Update fan-out has rebuilt the surfaces (40_bus.md R172). -/
def State.clearDirty (s : State) : State := { s with envDirty := false }

end Sys2Proof.Machine
end

