-- ==== Sys2Proof/Machine/Blit.lean ====
section
/-! DEFINITION. The blit streaming port (45_blit.md): address, pitch, width, the hidden counter and the
data port on secondary graphics memory. -/

namespace Sys2Proof.Machine

/-- `BLIT_ADDR`, `BLIT_PITCH`, `BLIT_WIDTH` (10_state.md R68 to R70). -/
def State.blitAddr (s : State) (i : Nat) : Word := s.devWord i regBlitAddr
def State.blitPitch (s : State) (i : Nat) : Word := s.devWord i regBlitPitch
def State.blitWidth (s : State) (i : Nat) : Word := s.devWord i regBlitWidth

/-- Set the hidden counter (10_state.md R47). -/
def State.setCounter (s : State) (c : Word) : State := { s with gpu := { s.gpu with widthCounter := c } }

/-- The port's next address (45_blit.md R345): within a row the next byte, at its end the row jump
`u16(a + 1 + p - w)`, which is this sum of 16-bit values. -/
def nextBlitAddr (a p w c : Word) : Word := if 1 < c then a + 1 else a + 1 + p - w

/-- The counter after an access (45_blit.md R345). -/
def nextCounter (w c : Word) : Word := if 1 < c then c - 1 else w

/-- `advance()`: after every normal data-port access (45_blit.md R345). -/
def State.blitAdvance (s : State) (i : Nat) : State :=
  let w := s.blitWidth i
  let c := s.gpu.widthCounter
  (s.setCounter (nextCounter w c)).setDevWord i regBlitAddr (nextBlitAddr (s.blitAddr i) (s.blitPitch i) w c)

/-- A normal read of GPU_BLIT_DATA (45_blit.md R344). -/
def blitRead (i : Nat) (s : State) : Byte × State := (s.extRead (s.blitAddr i).toNat, s.blitAdvance i)

/-- A normal write of GPU_BLIT_DATA (45_blit.md R346). -/
def blitWrite (i : Nat) (v : Byte) (s : State) : State :=
  (s.extWrite (s.blitAddr i).toNat v).blitAdvance i

/-- A normal write of a byte of GPU_BLIT_WIDTH: the counter becomes the full new width (R343). -/
def writeBlitWidth (i off : Nat) (v : Byte) (s : State) : State :=
  let t := s.setDevByte i off v
  t.setCounter (t.blitWidth i)

/-! ## Meanings -/

/-- RD_GPU_BLIT_ADDR_MSB (45_blit.md R341). -/
def execRdGpuBlitAddrMsb (s : State) : Host.Outcome State Fault Refusal :=
  s.atDevice .gpu (fun i t => t.answerByte i regBlitAddr)

/-- WR_GPU_BLIT_ADDR_MSB (45_blit.md R341). -/
def execWrGpuBlitAddrMsb (v : Byte) (s : State) : Host.Outcome State Fault Refusal :=
  s.atDevice .gpu (fun i t => t.setDevByte i regBlitAddr v)

/-- RD_GPU_BLIT_ADDR_LSB (45_blit.md R341). -/
def execRdGpuBlitAddrLsb (s : State) : Host.Outcome State Fault Refusal :=
  s.atDevice .gpu (fun i t => t.answerByte i (regBlitAddr + 1))

/-- WR_GPU_BLIT_ADDR_LSB (45_blit.md R341). -/
def execWrGpuBlitAddrLsb (v : Byte) (s : State) : Host.Outcome State Fault Refusal :=
  s.atDevice .gpu (fun i t => t.setDevByte i (regBlitAddr + 1) v)

/-- RD_GPU_BLIT_PITCH_MSB (45_blit.md R342). -/
def execRdGpuBlitPitchMsb (s : State) : Host.Outcome State Fault Refusal :=
  s.atDevice .gpu (fun i t => t.answerByte i regBlitPitch)

/-- WR_GPU_BLIT_PITCH_MSB (45_blit.md R342). -/
def execWrGpuBlitPitchMsb (v : Byte) (s : State) : Host.Outcome State Fault Refusal :=
  s.atDevice .gpu (fun i t => t.setDevByte i regBlitPitch v)

/-- RD_GPU_BLIT_PITCH_LSB (45_blit.md R342). -/
def execRdGpuBlitPitchLsb (s : State) : Host.Outcome State Fault Refusal :=
  s.atDevice .gpu (fun i t => t.answerByte i (regBlitPitch + 1))

/-- WR_GPU_BLIT_PITCH_LSB (45_blit.md R342). -/
def execWrGpuBlitPitchLsb (v : Byte) (s : State) : Host.Outcome State Fault Refusal :=
  s.atDevice .gpu (fun i t => t.setDevByte i (regBlitPitch + 1) v)

/-- RD_GPU_BLIT_WIDTH_MSB (45_blit.md R347). -/
def execRdGpuBlitWidthMsb (s : State) : Host.Outcome State Fault Refusal :=
  s.atDevice .gpu (fun i t => t.answerByte i regBlitWidth)

/-- RD_GPU_BLIT_WIDTH_LSB (45_blit.md R347). -/
def execRdGpuBlitWidthLsb (s : State) : Host.Outcome State Fault Refusal :=
  s.atDevice .gpu (fun i t => t.answerByte i (regBlitWidth + 1))

/-- WR_GPU_BLIT_WIDTH_MSB (45_blit.md R343). -/
def execWrGpuBlitWidthMsb (v : Byte) (s : State) : Host.Outcome State Fault Refusal :=
  s.atDevice .gpu (fun i t => writeBlitWidth i regBlitWidth v t)

/-- WR_GPU_BLIT_WIDTH_LSB (45_blit.md R343). -/
def execWrGpuBlitWidthLsb (v : Byte) (s : State) : Host.Outcome State Fault Refusal :=
  s.atDevice .gpu (fun i t => writeBlitWidth i (regBlitWidth + 1) v t)

/-- RD_GPU_BLIT_DATA (45_blit.md R344). -/
def execRdGpuBlitData (s : State) : Host.Outcome State Fault Refusal :=
  s.atDevice .gpu (fun i t => (blitRead i t).2.respond (.byte (blitRead i t).1))

/-- WR_GPU_BLIT_DATA (45_blit.md R346). -/
def execWrGpuBlitData (v : Byte) (s : State) : Host.Outcome State Fault Refusal :=
  s.atDevice .gpu (fun i t => blitWrite i v t)

end Sys2Proof.Machine
end

