-- ==== Sys2Proof/Machine/Command.lean ====
section
/-! DEFINITION. The command coprocessor and the error register (46_command.md). -/

namespace Sys2Proof.Machine

/-- The entry of `COMMAND_TABLE` for an opcode, a finite map (46_command.md R367). -/
def State.commandEntry (s : State) (op : Byte) : Option CommandEntry :=
  s.cfg.commandTable.find? (fun e => e.opcode == op)

/-- `dom(COMMAND_TABLE)`, in the table's order. -/
def State.knownOpcodes (s : State) : List Byte := s.cfg.commandTable.map (·.opcode)

/-- What a handler may read (46_command.md R367). -/
def State.handlerView (s : State) (i : Nat) : HandlerView :=
  { ext := s.gpu.ext
    palette := s.gpu.palette
    epalette := s.gpu.epalette
    glyph := s.gpu.glyph
    dec := s.gpu.dec
    widthCounter := s.gpu.widthCounter
    backing := match s.devs[i]? with
      | some d => d.backing
      | none => [] }

/-- Commit a handler's state change: what R367 lets it change, and nothing else. -/
def State.commitHandler (s : State) (i : Nat) (w : HandlerWrites) : State :=
  let t := { s with
    gpu := { s.gpu with
      ext := Memory.ofCells extMemSize w.ext
      palette := w.palette
      epalette := w.epalette
      glyph := w.glyph
      widthCounter := w.widthCounter } }
  ((t.setDevWord i regBlitAddr w.blitAddr).setDevWord i regBlitPitch w.blitPitch).setDevWord i
    regBlitWidth w.blitWidth

/-- Run a handler: a success commits, a failure records its code and commits nothing
(46_command.md R363, R364). -/
def State.runHandler (s : State) (i : Nat) (handler : HandlerView → HandlerResult) : State :=
  match handler (s.handlerView i) with
  | .success w => s.commitHandler i w
  | .failure e => s.setError i (.handler e)

/-- GPU_CMD reads 0x00 after every dispatch (46_command.md R365). -/
def State.clearCommand (s : State) (i : Nat) : State := s.setDevByte i regCmd 0x00

/-- A dispatch whose opcode the table knows, with the handler of each number given (R361, R363). -/
def State.dispatchKnown (s : State) (i : Nat) (handlers : Nat → HandlerView → HandlerResult)
    (e : CommandEntry) : State :=
  (s.runHandler i (handlers e.handler)).clearCommand i

/-- A dispatch whose opcode the table does not know (46_command.md R362). -/
def State.dispatchUnknown (s : State) (i : Nat) : State :=
  (s.setError i .invalidCommand).clearCommand i

/-- `WR_GPU_CMD`: the dispatch of one opcode, for any handlers (46_command.md R361). -/
def State.dispatchWith (s : State) (i : Nat) (handlers : Nat → HandlerView → HandlerResult)
    (op : Byte) : State :=
  match s.commandEntry op with
  | some e => s.dispatchKnown i handlers e
  | none => s.dispatchUnknown i

/-- A normal write of GPU_CMD (46_command.md R361). -/
def writeCmd (i : Nat) (op : Byte) (s : State) : State := s.dispatchWith i Config.handler op

/-! ## Meanings -/

/-- WR_GPU_CMD (46_command.md R361). -/
def execWrGpuCmd (op : Byte) (s : State) : Host.Outcome State Fault Refusal :=
  s.atDevice .gpu (fun i t => writeCmd i op t)

/-- CMD_KNOWN: the opcode is a key of the table (46_command.md R363, R364); an opcode that is not
spells the other row (30_encoding.md R128). -/
def execCmdKnown (op : Byte) (s : State) : Host.Outcome State Fault Refusal :=
  match s.commandEntry op with
  | some e => s.atDevice .gpu (fun i t => t.dispatchKnown i Config.handler e)
  | none => .refused .otherRow

/-- CMD_UNKNOWN: the opcode is no key of the table (46_command.md R362). -/
def execCmdUnknown (op : Byte) (s : State) : Host.Outcome State Fault Refusal :=
  match s.commandEntry op with
  | some _ => .refused .otherRow
  | none => s.atDevice .gpu (fun i t => t.dispatchUnknown i)

/-- RD_GPU_CMD (46_command.md R366). -/
def execRdGpuCmd (s : State) : Host.Outcome State Fault Refusal :=
  s.atDevice .gpu (fun i t => t.answerByte i regCmd)

/-- WR_GPU_ERROR: ignored, the register is read-only (46_command.md R369). -/
def execWrGpuError (_ : Byte) (s : State) : Host.Outcome State Fault Refusal :=
  s.atDevice .gpu (fun _ t => t)

/-- RD_GPU_ERROR: reading does not clear it (46_command.md R372). -/
def execRdGpuError (s : State) : Host.Outcome State Fault Refusal :=
  s.atDevice .gpu (fun i t => t.answerByte i regError)

end Sys2Proof.Machine
end

