-- ==== Sys2Proof/Machine/DisplayMode.lean ====
section
/-! DEFINITION. The display-mode decode pass (43_gpu_decode.md) and the rows of GPU_MODE, GPU_RES,
GPU_OPTIONS and GPU_VIDTOP (42_gpu_registers.md R231 to R237, R247). -/

namespace Sys2Proof.Machine

/-! ## The pass as a function of its inputs (43_gpu_decode.md R281) -/

/-- The results a pass commits (43_gpu_decode.md R287). -/
structure Applied where
  mode : Byte
  res : Byte
  top : Word
  dec : Display
  deriving DecidableEq, Repr

/-- How a pass ends: it accepts, step 1 rejects it silently (R282), or a plane overruns (R289). -/
inductive PassResult where
  | accept (r : Applied)
  | reject
  | overrun
  deriving DecidableEq, Repr

/-- Step 1: the row forbids the enabled standard plane's mode (43_gpu_decode.md R282). -/
def rowForbids (row : DmtRow) (f : ModeFields) : Bool :=
  (f.stdEn && f.stdBitmap && !row.stdBitmapValid) || (f.stdEn && !f.stdBitmap && !row.textValid)

/-- Step 2: the host window size (43_gpu_decode.md R284). -/
def windowOf (row : DmtRow) (opt : Byte) : WindowSize :=
  Config.windowSize
    { timingIndex := row.timingIndex
      pixelWidth := row.pixelWidth
      pixelHeight := row.pixelHeight
      resWidth := row.resWidth
      resHeight := row.resHeight
      aspect := optionAspect opt
      pixmul := optionPixmul opt
      vsync := optionVsync opt
      fullscreen := optionFullscreen opt }

/-- Halve `bpp` while `area8 * bpp` exceeds the capacity, at most `fuel` times. -/
def fitFuel (fuel bpp area8 cap : Nat) : Nat :=
  match fuel with
  | 0 => bpp
  | fuel + 1 => if 0 < bpp ∧ cap < area8 * bpp then fitFuel fuel (bpp / 2) area8 cap else bpp

/-- `fit`: 8, 4, 2, 1 and then 0 bits per pixel, until the plane fits (43_gpu_decode.md R283). Four
halvings bring any depth to 0. -/
def fit (bpp w h cap : Nat) : Nat := fitFuel 4 bpp (w * h / 8) cap

/-- The standard plane of step 3: its bits per pixel, or none on an overrun (R283, R291). -/
def stdPlaneBpp (p : Params) (row : DmtRow) (f : ModeFields) : Option Nat :=
  if f.stdEn then
    if f.stdBitmap then
      let b := fit (depthBpp f.stdDepth) row.resWidth row.resHeight p.stdCap
      if b = 0 then none else some b
    else if p.stdCap < textBytes row.resWidth row.resHeight then none
    else some (depthBpp f.stdDepth)
  else some (depthBpp f.stdDepth)

/-- The extended plane of step 3: its bits per pixel, or none on an overrun (R283). -/
def extPlaneBpp (p : Params) (row : DmtRow) (f : ModeFields) : Option Nat :=
  if f.extEn then
    let b := fit (depthBpp f.extDepth) row.resWidth row.resHeight p.extCap
    if b = 0 then none else some b
  else some (depthBpp f.extDepth)

/-- The bytes of the standard plane's buffer in use (43_gpu_decode.md R285). -/
def bufferUsed (row : DmtRow) (f : ModeFields) (sb : Nat) : Nat :=
  if f.stdEn then
    if f.stdBitmap then row.resWidth * row.resHeight / 8 * sb
    else textBytes row.resWidth row.resHeight
  else 0

/-- Step 4: `u16(VIDEO_BASE + used - 1)`, on integers (43_gpu_decode.md R285). -/
def videoTop (base used : Nat) : Word := BitVec.ofInt 16 ((base : Int) + (used : Int) - 1)

/-- Step 5: the applied mode byte; the depth code of a disabled plane, and of the standard plane in
text mode, is kept as requested (43_gpu_decode.md R286). -/
def appliedMode (f : ModeFields) (sb eb : Nat) : Byte :=
  modeByte
    { f with
      extDepth := if f.extEn then depthCode eb else f.extDepth
      stdDepth := if f.stdEn && f.stdBitmap then depthCode sb else f.stdDepth }

/-- The decode pass on a requested mode and row, from the parameters, `VIDEO_BASE` and GPU_OPTIONS
(43_gpu_decode.md R281). -/
def decodePass (p : Params) (base : Nat) (opt reqMode reqRes : Byte) : PassResult :=
  let row := entry p.dmt reqRes
  let f := modeFields reqMode
  if rowForbids row f then .reject
  else
    match stdPlaneBpp p row f, extPlaneBpp p row f with
    | some sb, some eb =>
      .accept
        { mode := appliedMode f sb eb
          res := reqRes
          top := videoTop base (bufferUsed row f sb)
          dec :=
            { row := reqRes
              width := row.resWidth
              height := row.resHeight
              stdEn := f.stdEn
              stdBitmap := f.stdBitmap
              stdBpp := sb
              extEn := f.extEn
              extBpp := eb
              window := windowOf row opt } }
    | _, _ => .overrun

/-! ## The pass on the state of the i-th device, a GPU -/

/-- Commit: all of the pass's results together (43_gpu_decode.md R287). -/
def State.commitPass (s : State) (i : Nat) (r : Applied) : State :=
  let t := ((s.setDevByte i regMode r.mode).setDevByte i regRes r.res).setDevWord i regVidtop r.top
  { t with gpu := { t.gpu with accMode := r.mode, accRes := r.res, dec := r.dec } }

/-- Reject: both registers revert to the last accepted pair and nothing is committed (R288). -/
def State.revertMode (s : State) (i : Nat) : State :=
  (s.setDevByte i regMode s.gpu.accMode).setDevByte i regRes s.gpu.accRes

/-- `decodePass(reqMode, reqRes)` run on the state; an overrun records its error and rejects
(43_gpu_decode.md R281, R287 to R289). -/
def State.runPass (s : State) (i : Nat) (reqMode reqRes : Byte) : State :=
  match decodePass s.cfg s.videoBase (s.devByte i regOptions) reqMode reqRes with
  | .accept r => s.commitPass i r
  | .reject => s.revertMode i
  | .overrun => (s.setError i .bufferOverrun).revertMode i

/-! ## Register handlers -/

/-- A normal write of GPU_MODE (42_gpu_registers.md R231). -/
def writeMode (i : Nat) (v : Byte) (s : State) : State :=
  let t := (s.setDevByte i regMode v).markDirty
  t.runPass i v (t.devByte i regRes)

/-- A normal write of GPU_RES (42_gpu_registers.md R233). -/
def writeRes (i : Nat) (v : Byte) (s : State) : State :=
  let t := (s.setDevByte i regRes v).markDirty
  t.runPass i (t.devByte i regMode) v

/-- A normal write of GPU_OPTIONS: step 2 alone, for the row in use (42_gpu_registers.md R235). -/
def writeOptions (i : Nat) (v : Byte) (s : State) : State :=
  let t := (s.setDevByte i regOptions v).markDirty
  { t with gpu := { t.gpu with dec := { t.gpu.dec with window := windowOf (entry t.cfg.dmt t.gpu.dec.row) v } } }

/-! ## Meanings -/

/-- RD_GPU_MODE (42_gpu_registers.md R232). -/
def execRdGpuMode (s : State) : Host.Outcome State Fault Refusal :=
  s.atDevice .gpu (fun i t => t.answerByte i regMode)

/-- WR_GPU_MODE (42_gpu_registers.md R231). -/
def execWrGpuMode (v : Byte) (s : State) : Host.Outcome State Fault Refusal :=
  s.atDevice .gpu (fun i t => writeMode i v t)

/-- RD_GPU_RES (42_gpu_registers.md R234). -/
def execRdGpuRes (s : State) : Host.Outcome State Fault Refusal :=
  s.atDevice .gpu (fun i t => t.answerByte i regRes)

/-- WR_GPU_RES (42_gpu_registers.md R233). -/
def execWrGpuRes (v : Byte) (s : State) : Host.Outcome State Fault Refusal :=
  s.atDevice .gpu (fun i t => writeRes i v t)

/-- RD_GPU_OPTIONS (42_gpu_registers.md R236). -/
def execRdGpuOptions (s : State) : Host.Outcome State Fault Refusal :=
  s.atDevice .gpu (fun i t => t.answerByte i regOptions)

/-- WR_GPU_OPTIONS (42_gpu_registers.md R235). -/
def execWrGpuOptions (v : Byte) (s : State) : Host.Outcome State Fault Refusal :=
  s.atDevice .gpu (fun i t => writeOptions i v t)

/-- RD_GPU_VIDTOP_MSB (42_gpu_registers.md R237). -/
def execRdGpuVidtopMsb (s : State) : Host.Outcome State Fault Refusal :=
  s.atDevice .gpu (fun i t => t.answerByte i regVidtop)

/-- RD_GPU_VIDTOP_LSB (42_gpu_registers.md R237). -/
def execRdGpuVidtopLsb (s : State) : Host.Outcome State Fault Refusal :=
  s.atDevice .gpu (fun i t => t.answerByte i (regVidtop + 1))

/-- WR_GPU_VIDTOP_MSB: ignored, the register is read-only (42_gpu_registers.md R247). -/
def execWrGpuVidtopMsb (_ : Byte) (s : State) : Host.Outcome State Fault Refusal :=
  s.atDevice .gpu (fun _ t => t)

/-- WR_GPU_VIDTOP_LSB: ignored, the register is read-only (42_gpu_registers.md R247). -/
def execWrGpuVidtopLsb (_ : Byte) (s : State) : Host.Outcome State Fault Refusal :=
  s.atDevice .gpu (fun _ t => t)

end Sys2Proof.Machine
end

