-- ==== Sys2Proof/Machine/GpuTables.lean ====
section
/-! DEFINITION. The palette and glyph registers of the GPU (42_gpu_registers.md R238 to R249): index
registers that are plain backing bytes, and data registers that are windows on the tables. -/

namespace Sys2Proof.Machine

/-! ## The windows (10_state.md R64, R65, R67) -/

/-- The selected entry of the standard palette, `gpu.palette[i_pal]`. -/
def State.palEntry (s : State) (i : Nat) : Word := entry s.gpu.palette (s.devByte i regPalIndex)

/-- Replace the selected entry of the standard palette. -/
def State.setPalEntry (s : State) (i : Nat) (w : Word) : State :=
  { s with gpu := { s.gpu with palette := setEntry s.gpu.palette (s.devByte i regPalIndex) w } }

/-- The selected entry of the extended palette, `gpu.epalette[i_epal]`. -/
def State.epalEntry (s : State) (i : Nat) : Word := entry s.gpu.epalette (s.devByte i regEpalIndex)

/-- Replace the selected entry of the extended palette. -/
def State.setEpalEntry (s : State) (i : Nat) (w : Word) : State :=
  { s with gpu := { s.gpu with epalette := setEntry s.gpu.epalette (s.devByte i regEpalIndex) w } }

/-- Row `r` of the selected glyph, `gpu.glyph[i_gly][r]`. -/
def State.glyphRow (s : State) (i : Nat) (r : Fin 8) : Byte :=
  (entry s.gpu.glyph (s.devByte i regGlyphIndex))[r]

/-- Replace row `r` of the selected glyph. -/
def State.setGlyphRow (s : State) (i : Nat) (r : Fin 8) (v : Byte) : State :=
  let g := s.devByte i regGlyphIndex
  { s with gpu := { s.gpu with glyph := setEntry s.gpu.glyph g ((entry s.gpu.glyph g).set r v) } }

/-! ## Write handlers: each byte commits at once to its half (42_gpu_registers.md R240, R241) -/

def writePalMsb (i : Nat) (v : Byte) (s : State) : State := s.setPalEntry i (be16 v (lo8 (s.palEntry i)))
def writePalLsb (i : Nat) (v : Byte) (s : State) : State := s.setPalEntry i (be16 (hi8 (s.palEntry i)) v)
def writeEpalMsb (i : Nat) (v : Byte) (s : State) : State := s.setEpalEntry i (be16 v (lo8 (s.epalEntry i)))
def writeEpalLsb (i : Nat) (v : Byte) (s : State) : State := s.setEpalEntry i (be16 (hi8 (s.epalEntry i)) v)

/-! ## Meanings: the standard palette -/

/-- RD_GPU_PAL_INDEX (42_gpu_registers.md R238). -/
def execRdGpuPalIndex (s : State) : Host.Outcome State Fault Refusal :=
  s.atDevice .gpu (fun i t => t.answerByte i regPalIndex)

/-- WR_GPU_PAL_INDEX (42_gpu_registers.md R238). -/
def execWrGpuPalIndex (v : Byte) (s : State) : Host.Outcome State Fault Refusal :=
  s.atDevice .gpu (fun i t => t.setDevByte i regPalIndex v)

/-- RD_GPU_PAL_DATA_MSB (42_gpu_registers.md R239). -/
def execRdGpuPalDataMsb (s : State) : Host.Outcome State Fault Refusal :=
  s.atDevice .gpu (fun i t => t.respond (.byte (hi8 (t.palEntry i))))

/-- RD_GPU_PAL_DATA_LSB (42_gpu_registers.md R239). -/
def execRdGpuPalDataLsb (s : State) : Host.Outcome State Fault Refusal :=
  s.atDevice .gpu (fun i t => t.respond (.byte (lo8 (t.palEntry i))))

/-- WR_GPU_PAL_DATA_MSB (42_gpu_registers.md R240). -/
def execWrGpuPalDataMsb (v : Byte) (s : State) : Host.Outcome State Fault Refusal :=
  s.atDevice .gpu (fun i t => writePalMsb i v t)

/-- WR_GPU_PAL_DATA_LSB (42_gpu_registers.md R241). -/
def execWrGpuPalDataLsb (v : Byte) (s : State) : Host.Outcome State Fault Refusal :=
  s.atDevice .gpu (fun i t => writePalLsb i v t)

/-! ## Meanings: the extended palette -/

/-- RD_GPU_EPAL_INDEX (42_gpu_registers.md R242). -/
def execRdGpuEpalIndex (s : State) : Host.Outcome State Fault Refusal :=
  s.atDevice .gpu (fun i t => t.answerByte i regEpalIndex)

/-- WR_GPU_EPAL_INDEX (42_gpu_registers.md R242). -/
def execWrGpuEpalIndex (v : Byte) (s : State) : Host.Outcome State Fault Refusal :=
  s.atDevice .gpu (fun i t => t.setDevByte i regEpalIndex v)

/-- RD_GPU_EPAL_DATA_MSB (42_gpu_registers.md R243). -/
def execRdGpuEpalDataMsb (s : State) : Host.Outcome State Fault Refusal :=
  s.atDevice .gpu (fun i t => t.respond (.byte (hi8 (t.epalEntry i))))

/-- RD_GPU_EPAL_DATA_LSB (42_gpu_registers.md R243). -/
def execRdGpuEpalDataLsb (s : State) : Host.Outcome State Fault Refusal :=
  s.atDevice .gpu (fun i t => t.respond (.byte (lo8 (t.epalEntry i))))

/-- WR_GPU_EPAL_DATA_MSB (42_gpu_registers.md R248). -/
def execWrGpuEpalDataMsb (v : Byte) (s : State) : Host.Outcome State Fault Refusal :=
  s.atDevice .gpu (fun i t => writeEpalMsb i v t)

/-- WR_GPU_EPAL_DATA_LSB (42_gpu_registers.md R249). -/
def execWrGpuEpalDataLsb (v : Byte) (s : State) : Host.Outcome State Fault Refusal :=
  s.atDevice .gpu (fun i t => writeEpalLsb i v t)

/-! ## Meanings: the glyph table -/

/-- RD_GPU_GLYPH_INDEX (42_gpu_registers.md R244). -/
def execRdGpuGlyphIndex (s : State) : Host.Outcome State Fault Refusal :=
  s.atDevice .gpu (fun i t => t.answerByte i regGlyphIndex)

/-- WR_GPU_GLYPH_INDEX (42_gpu_registers.md R244). -/
def execWrGpuGlyphIndex (v : Byte) (s : State) : Host.Outcome State Fault Refusal :=
  s.atDevice .gpu (fun i t => t.setDevByte i regGlyphIndex v)

/-- RD_GPU_GLYPH_ROW0 (42_gpu_registers.md R245). -/
def execRdGpuGlyphRow0 (s : State) : Host.Outcome State Fault Refusal :=
  s.atDevice .gpu (fun i t => t.respond (.byte (t.glyphRow i 0)))

/-- RD_GPU_GLYPH_ROW1 (42_gpu_registers.md R245). -/
def execRdGpuGlyphRow1 (s : State) : Host.Outcome State Fault Refusal :=
  s.atDevice .gpu (fun i t => t.respond (.byte (t.glyphRow i 1)))

/-- RD_GPU_GLYPH_ROW2 (42_gpu_registers.md R245). -/
def execRdGpuGlyphRow2 (s : State) : Host.Outcome State Fault Refusal :=
  s.atDevice .gpu (fun i t => t.respond (.byte (t.glyphRow i 2)))

/-- RD_GPU_GLYPH_ROW3 (42_gpu_registers.md R245). -/
def execRdGpuGlyphRow3 (s : State) : Host.Outcome State Fault Refusal :=
  s.atDevice .gpu (fun i t => t.respond (.byte (t.glyphRow i 3)))

/-- RD_GPU_GLYPH_ROW4 (42_gpu_registers.md R245). -/
def execRdGpuGlyphRow4 (s : State) : Host.Outcome State Fault Refusal :=
  s.atDevice .gpu (fun i t => t.respond (.byte (t.glyphRow i 4)))

/-- RD_GPU_GLYPH_ROW5 (42_gpu_registers.md R245). -/
def execRdGpuGlyphRow5 (s : State) : Host.Outcome State Fault Refusal :=
  s.atDevice .gpu (fun i t => t.respond (.byte (t.glyphRow i 5)))

/-- RD_GPU_GLYPH_ROW6 (42_gpu_registers.md R245). -/
def execRdGpuGlyphRow6 (s : State) : Host.Outcome State Fault Refusal :=
  s.atDevice .gpu (fun i t => t.respond (.byte (t.glyphRow i 6)))

/-- RD_GPU_GLYPH_ROW7 (42_gpu_registers.md R245). -/
def execRdGpuGlyphRow7 (s : State) : Host.Outcome State Fault Refusal :=
  s.atDevice .gpu (fun i t => t.respond (.byte (t.glyphRow i 7)))

/-- WR_GPU_GLYPH_ROW0 (42_gpu_registers.md R246). -/
def execWrGpuGlyphRow0 (v : Byte) (s : State) : Host.Outcome State Fault Refusal :=
  s.atDevice .gpu (fun i t => t.setGlyphRow i 0 v)

/-- WR_GPU_GLYPH_ROW1 (42_gpu_registers.md R246). -/
def execWrGpuGlyphRow1 (v : Byte) (s : State) : Host.Outcome State Fault Refusal :=
  s.atDevice .gpu (fun i t => t.setGlyphRow i 1 v)

/-- WR_GPU_GLYPH_ROW2 (42_gpu_registers.md R246). -/
def execWrGpuGlyphRow2 (v : Byte) (s : State) : Host.Outcome State Fault Refusal :=
  s.atDevice .gpu (fun i t => t.setGlyphRow i 2 v)

/-- WR_GPU_GLYPH_ROW3 (42_gpu_registers.md R246). -/
def execWrGpuGlyphRow3 (v : Byte) (s : State) : Host.Outcome State Fault Refusal :=
  s.atDevice .gpu (fun i t => t.setGlyphRow i 3 v)

/-- WR_GPU_GLYPH_ROW4 (42_gpu_registers.md R246). -/
def execWrGpuGlyphRow4 (v : Byte) (s : State) : Host.Outcome State Fault Refusal :=
  s.atDevice .gpu (fun i t => t.setGlyphRow i 4 v)

/-- WR_GPU_GLYPH_ROW5 (42_gpu_registers.md R246). -/
def execWrGpuGlyphRow5 (v : Byte) (s : State) : Host.Outcome State Fault Refusal :=
  s.atDevice .gpu (fun i t => t.setGlyphRow i 5 v)

/-- WR_GPU_GLYPH_ROW6 (42_gpu_registers.md R246). -/
def execWrGpuGlyphRow6 (v : Byte) (s : State) : Host.Outcome State Fault Refusal :=
  s.atDevice .gpu (fun i t => t.setGlyphRow i 6 v)

/-- WR_GPU_GLYPH_ROW7 (42_gpu_registers.md R246). -/
def execWrGpuGlyphRow7 (v : Byte) (s : State) : Host.Outcome State Fault Refusal :=
  s.atDevice .gpu (fun i t => t.setGlyphRow i 7 v)

end Sys2Proof.Machine
end

