-- ==== Sys2Proof/Machine/Sys.lean ====
section
/-! DEFINITION. The SYS device: the speed register of the clock agent (40_bus.md R183 to R186). -/

namespace Sys2Proof.Machine

/-- A normal write of SYS_SPEED: bits 7:4 are discarded (40_bus.md R183). -/
def writeSpeed (i : Nat) (v : Byte) (s : State) : State := s.setDevByte i regSpeed (v &&& 0x0F)

/-- The budget of level 0, 1 / 25000 s in nanoseconds (40_bus.md R186). -/
def slowestBudgetNs : Nat := 40000

/-- `SPEED_BUDGET_NS[LEVEL]`: level 0 is 40000 ns, level 15 is unmetered, the others are the
parameter (40_bus.md R186). No instruction reads it (log 21). -/
def speedBudgetNs (p : Params) (level : BitVec 4) : Nat :=
  if level = 0 then slowestBudgetNs
  else if h : level.toNat < 15 then p.speedBudgets[level.toNat - 1]'(by omega)
  else 0

/-- A list of budgets is non-increasing. -/
def nonIncreasing : List Nat → Bool
  | [] => true
  | [_] => true
  | a :: b :: rest => decide (b ≤ a) && nonIncreasing (b :: rest)

/-- The levels are in ascending speed: the budgets of levels 0 to 14 are non-increasing, and level 15's is 0,
below which none is (40_bus.md R186). -/
def ascendingSpeed (p : Params) : Bool := nonIncreasing (slowestBudgetNs :: p.speedBudgets.toList)

/-- RD_SYS_SPEED (40_bus.md R184). -/
def execRdSysSpeed (s : State) : Host.Outcome State Fault Refusal :=
  s.atDevice .sys (fun i t => t.answerByte i regSpeed)

/-- WR_SYS_SPEED (40_bus.md R183). -/
def execWrSysSpeed (v : Byte) (s : State) : Host.Outcome State Fault Refusal :=
  s.atDevice .sys (fun i t => writeSpeed i v t)

end Sys2Proof.Machine
end

