-- ==== Sys2Proof/Machine/DeviceAccess.lean ====
section
/-! DEFINITION. The device and MappedRegister contract (41_device.md): how a byte transaction routed to
a device is resolved, and the generic rows at a device's port. -/

namespace Sys2Proof.Machine

/-- The bytes with a read handler (41_device.md R203). -/
def hasReadHandler (k : DeviceKind) (off : Nat) : Bool :=
  k == .gpu && (off == 0x06 || off == 0x07 || off == 0x09 || off == 0x0A ||
    (decide (0x0C ≤ off) && decide (off ≤ 0x13)) || off == 0x1A)

/-- The bytes with a write handler (41_device.md R203). -/
def hasWriteHandler (k : DeviceKind) (off : Nat) : Bool :=
  (k == .gpu && (decide (off ≤ 0x04) || off == 0x06 || off == 0x07 || off == 0x09 || off == 0x0A ||
    (decide (0x0C ≤ off) && decide (off ≤ 0x13)) || (decide (0x18 ≤ off) && decide (off ≤ 0x1C)))) ||
  (k == .sys && off == 0x00)

/-- A normal read of a GPU byte: its handler where it has one, else the backing byte (R203). -/
def gpuRead (i off : Nat) (s : State) : Byte × State :=
  match off with
  | 0x06 => (hi8 (s.palEntry i), s)
  | 0x07 => (lo8 (s.palEntry i), s)
  | 0x09 => (hi8 (s.epalEntry i), s)
  | 0x0A => (lo8 (s.epalEntry i), s)
  | 0x0C => (s.glyphRow i 0, s)
  | 0x0D => (s.glyphRow i 1, s)
  | 0x0E => (s.glyphRow i 2, s)
  | 0x0F => (s.glyphRow i 3, s)
  | 0x10 => (s.glyphRow i 4, s)
  | 0x11 => (s.glyphRow i 5, s)
  | 0x12 => (s.glyphRow i 6, s)
  | 0x13 => (s.glyphRow i 7, s)
  | 0x1A => blitRead i s
  | _ => (s.devByte i off, s)

/-- A normal write of a GPU byte: its handler where it has one, else the backing byte (R203). -/
def gpuWrite (i off : Nat) (v : Byte) (s : State) : State :=
  match off with
  | 0x00 => writeMode i v s
  | 0x01 => writeRes i v s
  | 0x02 => writeOptions i v s
  | 0x03 => s
  | 0x04 => s
  | 0x06 => writePalMsb i v s
  | 0x07 => writePalLsb i v s
  | 0x09 => writeEpalMsb i v s
  | 0x0A => writeEpalLsb i v s
  | 0x0C => s.setGlyphRow i 0 v
  | 0x0D => s.setGlyphRow i 1 v
  | 0x0E => s.setGlyphRow i 2 v
  | 0x0F => s.setGlyphRow i 3 v
  | 0x10 => s.setGlyphRow i 4 v
  | 0x11 => s.setGlyphRow i 5 v
  | 0x12 => s.setGlyphRow i 6 v
  | 0x13 => s.setGlyphRow i 7 v
  | 0x18 => writeBlitWidth i 0x18 v s
  | 0x19 => writeBlitWidth i 0x19 v s
  | 0x1A => blitWrite i v s
  | 0x1B => writeCmd i v s
  | 0x1C => s
  | _ => s.setDevByte i off v

/-- `DevRead(d, off, dbg)` for the i-th device, of kind `k` (41_device.md R201). -/
def devRead (k : DeviceKind) (i off : Nat) (dbg : Bool) (s : State) : Byte × State :=
  if dbg then (s.devByte i off, s)
  else
    match k with
    | .other => s.drawByte
    | .gpu => gpuRead i off s
    | .ram | .rom | .videoRam | .sys => (s.devByte i off, s)

/-- `DevWrite(d, off, v, dbg)` for the i-th device, of kind `k` (41_device.md R201). -/
def devWrite (k : DeviceKind) (i off : Nat) (v : Byte) (dbg : Bool) (s : State) : State :=
  if dbg then s.setDevByte i off v
  else
    match k with
    | .rom => s
    | .other => s
    | .gpu => gpuWrite i off v s
    | .sys => if off = regSpeed then writeSpeed i v s else s.setDevByte i off v
    | .ram | .videoRam => s.setDevByte i off v

/-! ## Meanings of the generic rows -/

/-- DEV_RD: a normal read of a byte with no handler (41_device.md R202); of an OTHER device, a draw
(R211). -/
def execDevRd (off : Word) (s : State) : Host.Outcome State Fault Refusal :=
  s.atByte off (fun d => !hasReadHandler d.kind off.toNat)
    (fun i d t =>
      if d.kind = .other then t.drawByte.2.respond (.byte t.drawByte.1)
      else t.answerByte i off.toNat)

/-- DEV_WR: a normal write of a byte with no handler (41_device.md R202); to an OTHER device it has no
modelled effect (R211). A ROM's normal write is the row ROM_WR. -/
def execDevWr (off : Word) (v : Byte) (s : State) : Host.Outcome State Fault Refusal :=
  s.atByte off (fun d => d.kind != .rom && !hasWriteHandler d.kind off.toNat)
    (fun i d t => if d.kind = .other then t else t.setDevByte i off.toNat v)

/-- DEV_RD.D: a debug read returns the backing byte, at any offset of any device (R204). -/
def execDevRdD (off : Word) (s : State) : Host.Outcome State Fault Refusal :=
  s.atByte off (fun _ => true) (fun i _ t => t.answerByte i off.toNat)

/-- DEV_WR.D: a debug write stores the backing byte, at any offset of any device (R204). -/
def execDevWrD (off : Word) (v : Byte) (s : State) : Host.Outcome State Fault Refusal :=
  s.atByte off (fun _ => true) (fun i _ t => t.setDevByte i off.toNat v)

/-- ROM_WR: a normal write to ROM is ignored (41_device.md R207). -/
def execRomWr (off : Word) (_ : Byte) (s : State) : Host.Outcome State Fault Refusal :=
  s.atByte off (fun d => d.kind == .rom) (fun _ _ t => t)

/-- ROM_WR.D: a debug write to ROM stores the byte (41_device.md R208). -/
def execRomWrD (off : Word) (v : Byte) (s : State) : Host.Outcome State Fault Refusal :=
  s.atByte off (fun d => d.kind == .rom) (fun i _ t => t.setDevByte i off.toNat v)

end Sys2Proof.Machine
end

