-- ==== Sys2Proof/Machine/Bus.lean ====
section
/-! DEFINITION. Bus transactions (40_bus.md R163 to R171, R181). -/

namespace Sys2Proof.Machine

/-- `BusRead(a, dbg)`: routing, then the device; an unmapped address is open bus (R164, R165, R169). -/
def busRead (a : Word) (dbg : Bool) (s : State) : Byte × State :=
  match s.select a with
  | some i =>
    match s.devs[i]? with
    | some d => devRead d.kind i (a.toNat - d.range.base) dbg s
    | none => (openBus, s)
  | none => (openBus, s)

/-- `BusWrite(a, v, dbg)`: routing, then the device; an unmapped write is ignored (R166, R170). -/
def busWrite (a : Word) (v : Byte) (dbg : Bool) (s : State) : State :=
  match s.select a with
  | some i =>
    match s.devs[i]? with
    | some d => devWrite d.kind i (a.toNat - d.range.base) v dbg s
    | none => s
  | none => s

/-- A byte read transaction with its response. -/
def busReadByte (a : Word) (dbg : Bool) (s : State) : State :=
  (busRead a dbg s).2.respond (.byte (busRead a dbg s).1)

/-- A word read transaction: the byte at `a`, then the byte at `u16(a + 1)`, big-endian (R167). -/
def busReadWord (a : Word) (dbg : Bool) (s : State) : State :=
  let hi := busRead a dbg s
  let lo := busRead (a + 1) dbg hi.2
  lo.2.respond (.word (be16 hi.1 lo.1))

/-- A word write transaction: the high byte at `a`, then the low byte at `u16(a + 1)` (R168). -/
def busWriteWord (a w : Word) (dbg : Bool) (s : State) : State :=
  busWrite (a + 1) (lo8 w) dbg (busWrite a (hi8 w) dbg s)

/-! ## Meanings -/

/-- RD (40_bus.md R164). -/
def execRd (a : Word) (s : State) : Host.Outcome State Fault Refusal :=
  s.whenAdmitted s.busOpen (.next (busReadByte a false s))

/-- WR (40_bus.md R166). -/
def execWr (a : Word) (v : Byte) (s : State) : Host.Outcome State Fault Refusal :=
  s.whenAdmitted s.busOpen (.next (busWrite a v false s))

/-- RDW (40_bus.md R167). -/
def execRdw (a : Word) (s : State) : Host.Outcome State Fault Refusal :=
  s.whenAdmitted s.busOpen (.next (busReadWord a false s))

/-- WRW (40_bus.md R168). -/
def execWrw (a w : Word) (s : State) : Host.Outcome State Fault Refusal :=
  s.whenAdmitted s.busOpen (.next (busWriteWord a w false s))

/-- RD.D (40_bus.md R169). -/
def execRdD (a : Word) (s : State) : Host.Outcome State Fault Refusal :=
  s.whenAdmitted s.busOpen (.next (busReadByte a true s))

/-- WR.D (40_bus.md R170). -/
def execWrD (a : Word) (v : Byte) (s : State) : Host.Outcome State Fault Refusal :=
  s.whenAdmitted s.busOpen (.next (busWrite a v true s))

/-- RDW.D (40_bus.md R171). -/
def execRdwD (a : Word) (s : State) : Host.Outcome State Fault Refusal :=
  s.whenAdmitted s.busOpen (.next (busReadWord a true s))

/-- WRW.D (40_bus.md R181). -/
def execWrwD (a w : Word) (s : State) : Host.Outcome State Fault Refusal :=
  s.whenAdmitted s.busOpen (.next (busWriteWord a w true s))

end Sys2Proof.Machine
end

