-- ==== Sys2Proof/Machine/Lifecycle.lean ====
section
/-! DEFINITION. The host operations: attach, the lifecycle fan-outs, the clock tick and shutdown
(40_bus.md R161, R172 to R182; 44_gpu_render.md R330 to R337). -/

namespace Sys2Proof.Machine

/-! ## Attach (40_bus.md R161, R162; 41_device.md R205) -/

/-- `OnAttach`: the size a device reports where its MEMORY_MAP entry gives 0 (41_device.md R205,
44_gpu_render.md R331, 40_bus.md R185); RAM, ROM and OTHER report the size of their entry, that 0. -/
def State.reportedSize (s : State) (k : DeviceKind) : Nat :=
  match k with
  | .videoRam => s.cfg.stdCap
  | .gpu => gpuBlockSize
  | .sys => sysBlockSize
  | .ram | .rom | .other => 0

/-- The size an attach gives: an explicit nonzero size, else the reported one (40_bus.md R161). -/
def State.attachSize (s : State) (size : BitVec 17) : Nat :=
  if size.toNat = 0 then s.reportedSize s.beside.dev else size.toNat

/-- A GPU or SYS entry shorter than its register block breaks 00_scope.md R8(e). -/
def undersized (k : DeviceKind) (size : Nat) : Bool :=
  (k == .gpu && decide (size < gpuBlockSize)) || (k == .sys && decide (size < sysBlockSize))

/-- The backing buffer at attach: 0x00 for the GPU and SYS devices, else the draw RAM_INIT of the
i-th device (41_device.md R205; log 6). -/
def State.initialBacking (s : State) (k : DeviceKind) (i size : Nat) : Memory :=
  match k with
  | .gpu | .sys => []
  | .ram | .rom | .videoRam | .other => Memory.ofCells size (s.cfg.ramInit.getD i [])

/-- Append a device of a size to the bus (40_bus.md R161). With the first free address at 65536 a size of
0 is appended at base 65536: R161 accepts `base + sz = 65536` exactly, although 10_state.md R33 bounds a base
by 65535 (DEDUCED, log 22). -/
def State.appendDevice (s : State) (k : DeviceKind) (size : Nat) : State :=
  { s with
    devs := s.devs ++
      [{ kind := k, range := { base := s.nextFree, size := size }
         backing := s.initialBacking k s.devs.length size }]
    nextFree := s.nextFree + size }

/-- ATTACH (40_bus.md R161, R162). An overflow is fatal whatever the size; a size that fits and breaks
00_scope.md R8(e) is a refused configuration (log 5). -/
def execAttach (size : BitVec 17) (s : State) : Host.Outcome State Fault Refusal :=
  s.whenAdmitted (s.phase == .construct)
    (if busSize < s.nextFree + s.attachSize size then .next (s.raise .attachOverflow)
     else if undersized s.beside.dev (s.attachSize size) then .refused .configuration
     else .next (s.appendDevice s.beside.dev (s.attachSize size)))

/-! ## Init (40_bus.md R176, 44_gpu_render.md R330) -/

/-- How many devices of a kind are attached. -/
def State.countKind (s : State) (k : DeviceKind) : Nat := s.devs.countP (fun d => d.kind == k)

/-- A dimension of a DisplayMode row is in 1..65535 (00_scope.md R8(d); 10_state.md R44). -/
def dimensionOk (n : Nat) : Bool := decide (1 ≤ n) && decide (n ≤ 65535)

/-- The dimensions of a DisplayMode row, of its resolution and of its pixels (10_state.md R44). -/
def dmtRowOk (r : DmtRow) : Bool :=
  dimensionOk r.resWidth && dimensionOk r.resHeight && dimensionOk r.pixelWidth && dimensionOk r.pixelHeight

/-- A pass accepts. -/
def PassResult.accepts : PassResult → Bool
  | .accept _ => true
  | .reject => false
  | .overrun => false

/-- The constraints (a) to (d) of 00_scope.md R8, on what has been attached and the parameters, and the
order of the speed budgets (40_bus.md R186); (e) is checked at each attach (log 5). -/
def State.configured (s : State) : Bool :=
  s.countKind .gpu == 1 && s.countKind .videoRam == 1 && s.countKind .sys == 1 &&
  s.devs.all (fun d => d.kind != .videoRam || d.range.size == s.cfg.stdCap) &&
  decide (s.cfg.extCap ≤ extMemSize) &&
  s.cfg.dmt.toList.all dmtRowOk &&
  ascendingSpeed s.cfg &&
  (decodePass s.cfg s.videoBase 0x00 s.cfg.resetMode s.cfg.resetRes).accepts

/-- The GPU bytes OnInit clears (44_gpu_render.md R330). -/
def initClearedOffsets : List Nat :=
  [0x02, 0x05, 0x08, 0x0B, 0x14, 0x15, 0x16, 0x17, 0x18, 0x19, 0x1B, 0x1C]

/-- Clear some bytes of the i-th device. -/
def State.clearBytes (s : State) (i : Nat) (offs : List Nat) : State :=
  offs.foldl (fun t off => t.setDevByte i off 0x00) s

/-- `OnInit` of the GPU (44_gpu_render.md R330). -/
def State.gpuInit (s : State) (i : Nat) : State :=
  let t := s.clearBytes i initClearedOffsets
  let u := { t with
    gpu := { t.gpu with
      palette := t.cfg.defaultPalette
      epalette := t.cfg.defaultPalette
      glyph := t.cfg.defaultFont
      widthCounter := 0
      accMode := 0x00
      accRes := 0x00 } }
  u.runPass i u.cfg.resetMode u.cfg.resetRes

/-- OnInit of each kind (41_device.md R210). -/
def onInit (k : DeviceKind) (i : Nat) (s : State) : State :=
  match k with
  | .gpu => s.gpuInit i
  | .ram | .rom | .videoRam | .sys | .other => s

/-- INIT (40_bus.md R176). A configuration that breaks 00_scope.md R8 is refused. -/
def execInit (s : State) : Host.Outcome State Fault Refusal :=
  s.whenAdmitted (s.phase == .construct)
    (if s.configured then .next { s.fanOut onInit with phase := .ready }
     else .refused .configuration)

/-! ## Activate, Deactivate, Update, Event, Quit -/

/-- Every create call of the host succeeded (44_gpu_render.md R332). -/
def SurfaceResults.ok (r : SurfaceResults) : Bool :=
  r.window && r.standardTexture && r.extendedTexture && r.renderTarget

/-- OnActivate: the GPU creates the host surfaces, from the results the host gives (R332). -/
def onActivate (k : DeviceKind) (_ : Nat) (s : State) : State :=
  match k with
  | .gpu => if s.beside.surfaces.ok then s else s.raise .surfaceFailure
  | .ram | .rom | .videoRam | .sys | .other => s

/-- OnDeactivate: the GPU destroys its surfaces; no modelled state changes (44_gpu_render.md R333). -/
def onDeactivate (_ : DeviceKind) (_ : Nat) (s : State) : State := s

/-- OnUpdate: no effect on any modelled state (44_gpu_render.md R334). -/
def onUpdate (_ : BitVec 17) (_ : DeviceKind) (_ : Nat) (s : State) : State := s

/-- OnEvent: a no-op (44_gpu_render.md R337). -/
def onEvent (_ : HostEvent) (_ : DeviceKind) (_ : Nat) (s : State) : State := s

/-- OnQuit: a no-op (44_gpu_render.md R337). -/
def onQuit (_ : DeviceKind) (_ : Nat) (s : State) : State := s

/-- The boot ACTIVATE enters the run phase (40_bus.md R173). -/
def State.enterRun (s : State) : State :=
  if s.phase = .ready then { s with phase := .run, running := true } else s

/-- Go on with the rest of an operation unless a fatal error has ended it (60_exceptions.md R401). -/
def State.unlessFatal (s : State) (rest : State → State) : State :=
  match s.fault with
  | some _ => s
  | none => rest s

/-- ACTIVATE (40_bus.md R173). -/
def execActivate (s : State) : Host.Outcome State Fault Refusal :=
  s.whenAdmitted s.busOpen (.next ((s.fanOut onActivate).unlessFatal State.enterRun))

/-- DEACTIVATE (40_bus.md R174). -/
def execDeactivate (s : State) : Host.Outcome State Fault Refusal :=
  s.whenAdmitted s.busOpen (.next (s.fanOut onDeactivate))

/-- The dirty gate of UPDATE: one Deactivate and Activate cycle, then `envDirty` is cleared; a surface
failure ends it before the clearing (40_bus.md R172, 60_exceptions.md R409). -/
def State.rebuild (s : State) : State :=
  if s.envDirty then ((s.fanOut onDeactivate).fanOut onActivate).unlessFatal State.clearDirty else s

/-- UPDATE (40_bus.md R172). -/
def execUpdate (dt : BitVec 17) (s : State) : Host.Outcome State Fault Refusal :=
  s.whenAdmitted s.loopOpen (.next (s.rebuild.unlessFatal (fun t => t.fanOut (onUpdate dt))))

/-- EVENT (40_bus.md R178). -/
def execEvent (s : State) : Host.Outcome State Fault Refusal :=
  s.whenAdmitted s.loopOpen (.next (s.fanOut (onEvent s.beside.event)))

/-- QUIT (40_bus.md R177). -/
def execQuit (s : State) : Host.Outcome State Fault Refusal :=
  s.whenAdmitted (s.busOpen && !s.running) (.next { s.fanOut onQuit with phase := .done })

/-- SHUTDOWN (40_bus.md R180). -/
def execShutdown (s : State) : Host.Outcome State Fault Refusal :=
  s.whenAdmitted (s.phase == .run) (.next { s with running := false })

/-! ## The clock agent (40_bus.md R175) -/

/-- One normal transaction of the CPU core, by the rules of the bus. -/
def cpuTransaction (t : CpuTransaction) (s : State) : State :=
  match t with
  | .rd a => busReadByte a false s
  | .wr a v => busWrite a v false s
  | .rdw a => busReadWord a false s
  | .wrw a w => busWriteWord a w false s

/-- The transactions of one CPU step, in order. -/
def cpuStep : List CpuTransaction → State → State
  | [], s => s
  | t :: rest, s => cpuStep rest (cpuTransaction t s)

/-- TICK: the CPU core's transactions, then the achieved interval (40_bus.md R175). -/
def execTick (s : State) : Host.Outcome State Fault Refusal :=
  s.whenAdmitted s.loopOpen
    (.next { cpuStep s.beside.cpu s with achievedInterval := s.beside.interval })

end Sys2Proof.Machine
end

