-- ==== Sys2Proof/Machine/Loader.lean ====
section
/-! DEFINITION. The boot-image loader (47_boot_image.md). -/

namespace Sys2Proof.Machine

/-- A record (47_boot_image.md R387). The checksum is read and dropped (R385). -/
structure Record where
  addr : Word
  type : Byte
  data : List Byte
  deriving DecidableEq, Repr

/-- The lines of a text, each ended by LF, a CR before the LF dropped; what follows the last LF is a
line too. `cur` is the current line's characters, the latest first (R381, R386). -/
def splitLines (cur : List Byte) : List Byte → List (List Byte)
  | [] => [cur.reverse]
  | c :: rest =>
    if c = 0x0A then
      (match cur with
       | 0x0D :: line => line.reverse
       | line => line.reverse) :: splitLines [] rest
    else splitLines (c :: cur) rest

/-- The fields of a record's bytes: LL, AAAA, TT, LL data bytes, CC and nothing after (R387). -/
def recordOfBytes (bytes : List Byte) : Option Record :=
  match bytes with
  | len :: hi :: lo :: type :: rest =>
    if rest.length = len.toNat + 1 then
      some { addr := be16 hi lo, type := type, data := rest.take len.toNat }
    else none
  | _ => none

/-- `parseRecord(L)`: a colon and then the record's bytes in hexadecimal; none for a malformed line
(47_boot_image.md R387). -/
def parseRecord (line : List Byte) : Option Record :=
  match line with
  | 0x3A :: digits =>
    match hexBytes digits with
    | some bytes => recordOfBytes bytes
    | none => none
  | _ => none

/-- The byte writes of a data record: its bytes at rising addresses, modulo 65536 (R382, R389). -/
def recordWrites (a : Word) : List Byte → List (Word × Byte)
  | [] => []
  | v :: rest => (a, v) :: recordWrites (a + 1) rest

/-- The byte writes of a text's lines, in order: data records are written, 0x01 stops, other types and
malformed lines are skipped, the end of the text stops (R381 to R386). -/
def loadWrites : List (List Byte) → List (Word × Byte)
  | [] => []
  | line :: rest =>
    match parseRecord line with
    | none => loadWrites rest
    | some r =>
      if r.type = 0x00 then recordWrites r.addr r.data ++ loadWrites rest
      else if r.type = 0x01 then []
      else loadWrites rest

/-- Write bytes through the debug path, in order (47_boot_image.md R388). -/
def writeBytes : List (Word × Byte) → State → State
  | [], s => s
  | w :: rest, s => writeBytes rest (busWrite w.1 w.2 true s)

/-- The byte writes of the text beside the word. -/
def State.textWrites (s : State) : List (Word × Byte) := loadWrites (splitLines [] s.beside.text)

/-- LOAD (47_boot_image.md R381). -/
def execLoad (s : State) : Host.Outcome State Fault Refusal :=
  s.whenAdmitted (s.phase == .ready) (.next (writeBytes s.textWrites s))

end Sys2Proof.Machine
end

