-- ==== Sys2Proof/Machine/Render.lean ====
section
/-! DEFINITION. The render pipeline: the GPU's OnRender and the row RENDER (44_gpu_render.md). -/

namespace Sys2Proof.Machine

/-! ## Colour arithmetic -/

/-- One channel of the blend, `(dst*(16-a) + src*(a+1)) >> 4` (44_gpu_render.md R319). -/
def blendChannel (a dst src : BitVec 4) : BitVec 4 :=
  BitVec.ofNat 4 ((dst.toNat * (16 - a.toNat) + src.toNat * (a.toNat + 1)) >>> 4)

/-- Alpha-composite a palette entry over a pixel, the formula on all four fields (R319). -/
def blend (dst src : Word) : Word :=
  let a := alpha src
  argb (blendChannel a (alpha dst) (alpha src)) (blendChannel a (red dst) (red src))
    (blendChannel a (green dst) (green src)) (blendChannel a (blue dst) (blue src))

/-- `opaque(src)`: the entry's alpha replaced by 0xF (44_gpu_render.md R320). -/
def forceOpaque (src : Word) : Word := argb 0xF (red src) (green src) (blue src)

/-- The clear colour, opaque black (44_gpu_render.md R312). -/
def clearColour : Word := 0xF000

/-! ## Plane fetches, from the state as the snapshot (20_memory.md R103) -/

/-- A byte of the standard plane's buffer; past the capacity it is 0x00 (44_gpu_render.md R314). -/
def State.stdByte (s : State) (k : Nat) : Byte :=
  if k < s.cfg.stdCap then
    match s.videoRam with
    | some d => d.backing.read k
    | none => 0x00
  else 0x00

/-- `gpu.extBase`, fixed at 0 (10_state.md R49). -/
def extBase : Nat := 0

/-- A byte of the extended plane's buffer; past the capacity it is 0x00 (44_gpu_render.md R316). -/
def State.extByte (s : State) (k : Nat) : Byte :=
  if k < s.cfg.extCap then s.extRead (extBase + k) else 0x00

/-- The standard plane's palette index in bitmap mode (44_gpu_render.md R314). -/
def State.stdIndex (s : State) (x y : Nat) : Byte :=
  BitVec.ofNat 8 (unpack s.stdByte s.gpu.dec.stdBpp (y * s.gpu.dec.width + x))

/-- The extended plane's palette index (44_gpu_render.md R316). -/
def State.extIndex (s : State) (x y : Nat) : Byte :=
  BitVec.ofNat 8 (unpack s.extByte s.gpu.dec.extBpp (y * s.gpu.dec.width + x))

/-- The standard plane's palette index in text mode (44_gpu_render.md R317, R318). -/
def State.textIndex (s : State) (x y : Nat) : Byte :=
  let cell := y / 8 * (s.gpu.dec.width / 8) + x / 8
  let glyph := entry s.gpu.glyph (s.stdByte (2 * cell))
  let colours := s.stdByte (2 * cell + 1)
  let row := glyph[y % 8]'(Nat.mod_lt y (by decide))
  if row.getLsbD (7 - x % 8) then cellForeground colours else cellBackground colours

/-! ## Composition (44_gpu_render.md R311) -/

/-- The pixel under the standard plane: the clear colour, or the extended plane, drawn first and
opaque (R312, R313). -/
def State.underPixel (s : State) (x y : Nat) : Word :=
  if s.gpu.dec.extEn then forceOpaque (entry s.gpu.epalette (s.extIndex x y)) else clearColour

/-- The composed pixel: the standard plane's bitmap, or its text cells where there are any, blended
over what is under it (R311). -/
def State.pixel (s : State) (x y : Nat) : Word :=
  let d := s.gpu.dec
  let under := s.underPixel x y
  if d.stdEn then
    if d.stdBitmap then blend under (entry s.gpu.palette (s.stdIndex x y))
    else if x < 8 * (d.width / 8) ∧ y < 8 * (d.height / 8) then
      blend under (entry s.gpu.palette (s.textIndex x y))
    else under
  else under

/-- The composed frame, in row-major order (R311, R335). -/
def State.composed (s : State) : Frame :=
  let d := s.gpu.dec
  { width := d.width
    height := d.height
    pixels := (List.range (d.width * d.height)).map (fun p => s.pixel (p % d.width) (p / d.width)) }

/-- `F[x, y]`, for a pixel inside the frame. -/
def Frame.pixelAt (f : Frame) (x y : Nat) : Option Word := f.pixels[y * f.width + x]?

/-- OnRender: the GPU composes and presents; every other device does nothing (R311; 41_device.md
R210). -/
def onRender (k : DeviceKind) (_ : Nat) (s : State) : State :=
  match k with
  | .gpu => { s with frame := s.composed }
  | .ram | .rom | .videoRam | .sys | .other => s

/-- RENDER (40_bus.md R179). -/
def execRender (s : State) : Host.Outcome State Fault Refusal :=
  s.whenAdmitted s.loopOpen (.next (s.fanOut onRender))

end Sys2Proof.Machine
end

