-- ==== Sys2Proof/Machine/Dispatch.lean ====
section
/-! DEFINITION. The dispatch: one arm per operation, each a call of its meaning. -/

namespace Sys2Proof.Machine

def exec (i : Instr) (s : State) : Host.Outcome State Fault Refusal :=
  match i with
  | .rd a => Sys2Proof.Machine.execRd a s
  | .wr a v => Sys2Proof.Machine.execWr a v s
  | .rdw a => Sys2Proof.Machine.execRdw a s
  | .wrw a w => Sys2Proof.Machine.execWrw a w s
  | .rdD a => Sys2Proof.Machine.execRdD a s
  | .wrD a v => Sys2Proof.Machine.execWrD a v s
  | .rdwD a => Sys2Proof.Machine.execRdwD a s
  | .wrwD a w => Sys2Proof.Machine.execWrwD a w s
  | .attach size => Sys2Proof.Machine.execAttach size s
  | .init => Sys2Proof.Machine.execInit s
  | .quit => Sys2Proof.Machine.execQuit s
  | .activate => Sys2Proof.Machine.execActivate s
  | .deactivate => Sys2Proof.Machine.execDeactivate s
  | .event => Sys2Proof.Machine.execEvent s
  | .update dt => Sys2Proof.Machine.execUpdate dt s
  | .render => Sys2Proof.Machine.execRender s
  | .tick => Sys2Proof.Machine.execTick s
  | .load => Sys2Proof.Machine.execLoad s
  | .shutdown => Sys2Proof.Machine.execShutdown s
  | .devRd off => Sys2Proof.Machine.execDevRd off s
  | .devWr off v => Sys2Proof.Machine.execDevWr off v s
  | .devRdD off => Sys2Proof.Machine.execDevRdD off s
  | .devWrD off v => Sys2Proof.Machine.execDevWrD off v s
  | .romWr off v => Sys2Proof.Machine.execRomWr off v s
  | .romWrD off v => Sys2Proof.Machine.execRomWrD off v s
  | .rdGpuMode => Sys2Proof.Machine.execRdGpuMode s
  | .wrGpuMode v => Sys2Proof.Machine.execWrGpuMode v s
  | .rdGpuRes => Sys2Proof.Machine.execRdGpuRes s
  | .wrGpuRes v => Sys2Proof.Machine.execWrGpuRes v s
  | .rdGpuOptions => Sys2Proof.Machine.execRdGpuOptions s
  | .wrGpuOptions v => Sys2Proof.Machine.execWrGpuOptions v s
  | .rdGpuVidtopMsb => Sys2Proof.Machine.execRdGpuVidtopMsb s
  | .rdGpuVidtopLsb => Sys2Proof.Machine.execRdGpuVidtopLsb s
  | .wrGpuVidtopMsb v => Sys2Proof.Machine.execWrGpuVidtopMsb v s
  | .wrGpuVidtopLsb v => Sys2Proof.Machine.execWrGpuVidtopLsb v s
  | .rdGpuPalIndex => Sys2Proof.Machine.execRdGpuPalIndex s
  | .wrGpuPalIndex v => Sys2Proof.Machine.execWrGpuPalIndex v s
  | .rdGpuPalDataMsb => Sys2Proof.Machine.execRdGpuPalDataMsb s
  | .rdGpuPalDataLsb => Sys2Proof.Machine.execRdGpuPalDataLsb s
  | .wrGpuPalDataMsb v => Sys2Proof.Machine.execWrGpuPalDataMsb v s
  | .wrGpuPalDataLsb v => Sys2Proof.Machine.execWrGpuPalDataLsb v s
  | .rdGpuEpalIndex => Sys2Proof.Machine.execRdGpuEpalIndex s
  | .wrGpuEpalIndex v => Sys2Proof.Machine.execWrGpuEpalIndex v s
  | .rdGpuEpalDataMsb => Sys2Proof.Machine.execRdGpuEpalDataMsb s
  | .rdGpuEpalDataLsb => Sys2Proof.Machine.execRdGpuEpalDataLsb s
  | .wrGpuEpalDataMsb v => Sys2Proof.Machine.execWrGpuEpalDataMsb v s
  | .wrGpuEpalDataLsb v => Sys2Proof.Machine.execWrGpuEpalDataLsb v s
  | .rdGpuGlyphIndex => Sys2Proof.Machine.execRdGpuGlyphIndex s
  | .wrGpuGlyphIndex v => Sys2Proof.Machine.execWrGpuGlyphIndex v s
  | .rdGpuGlyphRow0 => Sys2Proof.Machine.execRdGpuGlyphRow0 s
  | .rdGpuGlyphRow1 => Sys2Proof.Machine.execRdGpuGlyphRow1 s
  | .rdGpuGlyphRow2 => Sys2Proof.Machine.execRdGpuGlyphRow2 s
  | .rdGpuGlyphRow3 => Sys2Proof.Machine.execRdGpuGlyphRow3 s
  | .rdGpuGlyphRow4 => Sys2Proof.Machine.execRdGpuGlyphRow4 s
  | .rdGpuGlyphRow5 => Sys2Proof.Machine.execRdGpuGlyphRow5 s
  | .rdGpuGlyphRow6 => Sys2Proof.Machine.execRdGpuGlyphRow6 s
  | .rdGpuGlyphRow7 => Sys2Proof.Machine.execRdGpuGlyphRow7 s
  | .wrGpuGlyphRow0 v => Sys2Proof.Machine.execWrGpuGlyphRow0 v s
  | .wrGpuGlyphRow1 v => Sys2Proof.Machine.execWrGpuGlyphRow1 v s
  | .wrGpuGlyphRow2 v => Sys2Proof.Machine.execWrGpuGlyphRow2 v s
  | .wrGpuGlyphRow3 v => Sys2Proof.Machine.execWrGpuGlyphRow3 v s
  | .wrGpuGlyphRow4 v => Sys2Proof.Machine.execWrGpuGlyphRow4 v s
  | .wrGpuGlyphRow5 v => Sys2Proof.Machine.execWrGpuGlyphRow5 v s
  | .wrGpuGlyphRow6 v => Sys2Proof.Machine.execWrGpuGlyphRow6 v s
  | .wrGpuGlyphRow7 v => Sys2Proof.Machine.execWrGpuGlyphRow7 v s
  | .rdGpuBlitAddrMsb => Sys2Proof.Machine.execRdGpuBlitAddrMsb s
  | .rdGpuBlitAddrLsb => Sys2Proof.Machine.execRdGpuBlitAddrLsb s
  | .wrGpuBlitAddrMsb v => Sys2Proof.Machine.execWrGpuBlitAddrMsb v s
  | .wrGpuBlitAddrLsb v => Sys2Proof.Machine.execWrGpuBlitAddrLsb v s
  | .rdGpuBlitPitchMsb => Sys2Proof.Machine.execRdGpuBlitPitchMsb s
  | .rdGpuBlitPitchLsb => Sys2Proof.Machine.execRdGpuBlitPitchLsb s
  | .wrGpuBlitPitchMsb v => Sys2Proof.Machine.execWrGpuBlitPitchMsb v s
  | .wrGpuBlitPitchLsb v => Sys2Proof.Machine.execWrGpuBlitPitchLsb v s
  | .rdGpuBlitWidthMsb => Sys2Proof.Machine.execRdGpuBlitWidthMsb s
  | .rdGpuBlitWidthLsb => Sys2Proof.Machine.execRdGpuBlitWidthLsb s
  | .wrGpuBlitWidthMsb v => Sys2Proof.Machine.execWrGpuBlitWidthMsb v s
  | .wrGpuBlitWidthLsb v => Sys2Proof.Machine.execWrGpuBlitWidthLsb v s
  | .rdGpuBlitData => Sys2Proof.Machine.execRdGpuBlitData s
  | .wrGpuBlitData v => Sys2Proof.Machine.execWrGpuBlitData v s
  | .wrGpuCmd op => Sys2Proof.Machine.execWrGpuCmd op s
  | .rdGpuCmd => Sys2Proof.Machine.execRdGpuCmd s
  | .wrGpuError v => Sys2Proof.Machine.execWrGpuError v s
  | .rdGpuError => Sys2Proof.Machine.execRdGpuError s
  | .cmdKnown op => Sys2Proof.Machine.execCmdKnown op s
  | .cmdUnknown op => Sys2Proof.Machine.execCmdUnknown op s
  | .rdSysSpeed => Sys2Proof.Machine.execRdSysSpeed s
  | .wrSysSpeed v => Sys2Proof.Machine.execWrSysSpeed v s

end Sys2Proof.Machine
end

