-- ==== Sys2Proof/Machine/Interleave.lean ====
section
/-! DEFINITION. The atomic steps of an operation and how they interleave with other agents' steps
(20_memory.md R91, R102, R108; 40_bus.md R182; log 10). A meaning runs all of its operation's atomic
steps one after the other; here an operation is taken apart, so that other entries of the inbox fall
between them; with it the admission table (70_reset_and_hazards.md R447) and the agents. -/

namespace Sys2Proof.Machine

/-! ## One atomic step -/

/-- The callback of a device of a kind (40_bus.md R182; 41_device.md R210). -/
def Callback.run (c : Callback) (k : DeviceKind) (i : Nat) (s : State) : State :=
  match c with
  | .quit => onQuit k i s
  | .activate => onActivate k i s
  | .deactivate => onDeactivate k i s
  | .update dt => onUpdate dt k i s
  | .event e => onEvent e k i s
  | .render => onRender k i s

/-- The assignment that ends a part of an operation (40_bus.md R172, R173, R175, R177). -/
def Closing.run (c : Closing) (s : State) : State :=
  match c with
  | .enterRun => s.enterRun
  | .clearDirty => s.clearDirty
  | .finish => { s with phase := .done }
  | .interval n => { s with achievedInterval := n }

/-- An atomic step, with the byte held before it and after it. The second byte of a word read answers the
whole word (40_bus.md R167, R171). -/
def AtomicStep.run (a : AtomicStep) (held : Byte) (s : State) : Byte × State :=
  match a with
  | .read a dbg => (held, busReadByte a dbg s)
  | .readHigh a dbg => busRead a dbg s
  | .readLow a dbg =>
    let lo := busRead a dbg s
    (held, lo.2.respond (.word (be16 held lo.1)))
  | .write a v dbg => (held, busWrite a v dbg s)
  | .callback c k i => (held, c.run k i s)
  | .close c => (held, c.run s)

/-- Atomic steps one after the other; a fatal error ends them (60_exceptions.md R401). -/
def runSteps : List AtomicStep → Byte → State → State
  | [], _, s => s
  | a :: rest, held, s => (a.run held s).2.unlessFatal (runSteps rest (a.run held s).1)

/-! ## The atomic steps of an operation -/

/-- A word read and a word write (40_bus.md R167, R168, R171, R181). -/
def readSteps (a : Word) (dbg : Bool) : List AtomicStep := [.readHigh a dbg, .readLow (a + 1) dbg]
def writeSteps (a w : Word) (dbg : Bool) : List AtomicStep :=
  [.write a (hi8 w) dbg, .write (a + 1) (lo8 w) dbg]

/-- A normal transaction of the CPU core (40_bus.md R175). -/
def CpuTransaction.steps : CpuTransaction → List AtomicStep
  | .rd a => [.read a false]
  | .wr a v => [.write a v false]
  | .rdw a => readSteps a false
  | .wrw a w => writeSteps a w false

/-- A fan-out: the callback of each device, in attach order (40_bus.md R182). -/
def State.fanSteps (s : State) (c : Callback) : List AtomicStep :=
  (s.devs.map (·.kind)).zipIdx.map (fun d => .callback c d.1 d.2)

/-- The rebuild of UPDATE, where the environment is dirty at its start (40_bus.md R172). -/
def State.rebuildSteps (s : State) : List AtomicStep :=
  if s.envDirty then s.fanSteps .deactivate ++ s.fanSteps .activate ++ [.close .clearDirty] else []

/-- The atomic steps of an operation that other agents' steps can interrupt; none for an operation that is
one atomic step, and for INIT (log 12). -/
def State.atomicSteps (s : State) (i : Instr) : Option (List AtomicStep) :=
  match i with
  | .rdw a => some (readSteps a false)
  | .wrw a w => some (writeSteps a w false)
  | .rdwD a => some (readSteps a true)
  | .wrwD a w => some (writeSteps a w true)
  | .quit => some (s.fanSteps .quit ++ [.close .finish])
  | .activate => some (s.fanSteps .activate ++ [.close .enterRun])
  | .deactivate => some (s.fanSteps .deactivate)
  | .event => some (s.fanSteps (.event s.beside.event))
  | .update dt => some (s.rebuildSteps ++ s.fanSteps (.update dt))
  | .render => some (s.fanSteps .render)
  | .tick => some (s.beside.cpu.flatMap CpuTransaction.steps ++ [.close (.interval s.beside.interval)])
  | .load => some (s.textWrites.map (fun w => .write w.1 w.2 true))
  | _ => none

/-! ## Admission (70_reset_and_hazards.md R447) -/

/-- The rows of the admission table. -/
inductive Admission where
  | construct | busOrReady | ready | loop | run | stopped
  deriving DecidableEq, Repr

/-- The row of an operation. DEV and COP words exist only inside a bus transaction (R134), so they are
admitted where it is. -/
def admission : Instr → Admission
  | .attach _ | .init => .construct
  | .load => .ready
  | .update _ | .event | .render | .tick => .loop
  | .shutdown => .run
  | .quit => .stopped
  | _ => .busOrReady

/-- The phases and the running flag a row admits. -/
def Admission.holds (a : Admission) (phase : Phase) (running : Bool) : Bool :=
  match a with
  | .construct => phase == .construct
  | .busOrReady => phase == .ready || phase == .run
  | .ready => phase == .ready
  | .loop => phase == .run && running
  | .run => phase == .run
  | .stopped => (phase == .ready || phase == .run) && !running

/-- The phases and the running flag in which an operation of a row goes on once it has begun: those that admit
it, but that the clock agent and the main loop finish what they have begun when SHUTDOWN clears the running
flag (40_bus.md R180). What the main loop finishes is the operation in progress: the EVENTs and the RENDER that
its iteration has not begun are not admitted any more, as R178, R179 and R447 require `running = 1` of them
(DESIGN CHOICE, log 24). No operation of phase CONSTRUCT is ever in progress (log 12). -/
def Admission.goesOn (a : Admission) (phase : Phase) (running : Bool) : Bool :=
  match a with
  | .construct => false
  | .loop => phase == .run
  | _ => a.holds phase running

/-- An operation is admitted: `fault` is absent and its row of the table holds. -/
def State.admits (s : State) (i : Instr) : Bool :=
  s.fault.isNone && (admission i).holds s.phase s.running

/-! ## The agents (20_memory.md R100; 60_exceptions.md R422) -/

/-- Who issues an operation, one at a time: the clock agent; the host's thread, which attaches, loads, runs
the lifecycle fan-outs and renders; SHUTDOWN's caller; a requester on the bus, such as the host's debugger
(DESIGN CHOICE, log 23). -/
inductive Agent where
  | clock | host | shutdown | requester
  deriving DecidableEq, Repr

/-- The agent of an operation. -/
def agentOf : Instr → Agent
  | .tick => .clock
  | .attach _ | .init | .load | .activate | .deactivate | .update _ | .event | .render | .quit => .host
  | .shutdown => .shutdown
  | _ => .requester

/-- An operation in progress holds an operation up: one of the same agent does, and once `running` is clear
one of the clock agent holds the host up, as the shutdown joins the clock thread (70_reset_and_hazards.md
R448; log 23). -/
def State.holdsUp (s : State) (o : Ongoing) (i : Instr) : Bool :=
  agentOf o.op == agentOf i || (agentOf o.op == .clock && agentOf i == .host && !s.running)

/-! ## Interleaving -/

/-- Put what is left of an operation back, after `n` other entries. -/
def State.postpone (s : State) (n : Nat) (o : Ongoing) : State :=
  match o.steps with
  | [] => s
  | _ :: _ => { s with inbox := s.inbox.take n ++ .resume o :: s.inbox.drop n }

/-- The next atomic step of an operation, the rest postponed as its `split` says; all that is left where it
says nothing. -/
def State.advance (s : State) (o : Ongoing) : State :=
  match o.split, o.steps with
  | [], steps => runSteps steps o.held s
  | _ :: _, [] => s
  | n :: split, a :: rest =>
    let r := a.run o.held s
    r.2.unlessFatal (fun t => t.postpone n { op := o.op, steps := rest, held := r.1, beside := o.beside, split := split })

/-- Take an operation in progress out of the inbox: what travels beside it is at hand, no response is
given yet. -/
def State.relatch (s : State) (o : Ongoing) (rest : List Entry) : State :=
  { s with inbox := rest, beside := o.beside, resp := [] }

/-- The next step of an operation in progress, in the states in which its row lets it go on
(70_reset_and_hazards.md R447; 60_exceptions.md R401). -/
def State.goOn (s : State) (o : Ongoing) (rest : List Entry) : Host.Outcome State Fault Refusal :=
  s.whenAdmitted ((admission o.op).goesOn s.phase s.running) (.next ((s.relatch o rest).advance o))

end Sys2Proof.Machine
end

