-- ==== Sys2Proof/Machine/Fetch.lean ====
section
/-! DEFINITION. How the block takes its next operation: the request at the head of the inbox, decoded
at the port it is presented at (20_memory.md R102; 30_encoding.md R124, R128, R134; log 2), the
beginning of an operation that other agents' steps interrupt (20_memory.md R102; log 10), and the
order in which an agent's operations run (20_memory.md R100). -/

namespace Sys2Proof.Machine

/-! ## Decoding a request -/

/-- The port of a request, as the decoder names it; none where no such device, or no such
coprocessor, is attached. -/
def State.decoderPort (s : State) (p : RequestPort) : Option Port :=
  match p with
  | .requester => some .requester
  | .device i =>
    match s.devs[i]? with
    | some d => some (.device d.kind)
    | none => none
  | .coprocessor i =>
    match s.devs[i]? with
    | some d => if d.kind = .gpu then some (.coprocessor s.knownOpcodes) else none
    | none => none

/-- The operation a request asks for. -/
def State.decodeRequest (s : State) (r : Request) : Except Reserved Instr :=
  match s.decoderPort r.port with
  | some p => decode p r.word
  | none => .error .noSuchPort

/-! ## Taking a request -/

/-- The device a request's word was routed to; a requester's word is routed by its own meaning. -/
def RequestPort.targetOr (p : RequestPort) (t : Nat) : Nat :=
  match p with
  | .requester => t
  | .device i => i
  | .coprocessor i => i

/-- Take a request out of the inbox: what travels beside it is at hand, no response is given yet. -/
def State.latch (s : State) (r : Request) (rest : List Entry) : State :=
  { s with inbox := rest, beside := r.beside, target := r.port.targetOr s.target, resp := [] }

/-! ## Beginning an operation in steps (20_memory.md R102; log 10) -/

/-- The operation in progress that a request begins, where the request splits it and it has more than one
atomic step; `s` has taken the request. -/
def State.divided (s : State) (r : Request) (i : Instr) : Option Ongoing :=
  match r.split, s.atomicSteps i with
  | _ :: _, some steps => some { op := i, steps := steps, held := 0, beside := r.beside, split := r.split }
  | _, _ => none

/-- The first atomic step of an operation, where it is admitted. -/
def State.begin (s : State) (i : Instr) (o : Ongoing) : Host.Outcome State Fault Refusal :=
  s.whenAdmitted ((admission i).holds s.phase s.running) (.next (s.advance o))

/-! ## One operation of an agent at a time (20_memory.md R100; 60_exceptions.md R422) -/

/-- The first operation in progress that holds an operation up, and the other entries. -/
def State.holder (s : State) (i : Instr) : List Entry → Option (Ongoing × List Entry)
  | [] => none
  | .resume o :: rest =>
    if s.holdsUp o i then some (o, rest)
    else (s.holder i rest).map (fun p => (p.1, .resume o :: p.2))
  | .request r :: rest => (s.holder i rest).map (fun p => (p.1, .request r :: p.2))

/-- The inbox with the entry that takes the next step at its head: where the request there is held up by an
operation in progress, that operation goes first (DESIGN CHOICE, log 23). -/
def State.nextEntries (s : State) : List Entry :=
  match s.inbox with
  | .request r :: rest =>
    match s.decodeRequest r with
    | .ok i =>
      match s.holder i rest with
      | some p => .resume p.1 :: .request r :: p.2
      | none => .request r :: rest
    | .error _ => .request r :: rest
  | entries => entries

/-! ## Placing a bare word of the opcode table (log 1, log 3) -/

/-- A phase and a running flag that a row admits. -/
def Admission.sample : Admission → Phase × Bool
  | .construct => (.construct, false)
  | .busOrReady => (.ready, false)
  | .ready => (.ready, false)
  | .loop => (.run, true)
  | .run => (.run, true)
  | .stopped => (.run, false)

/-- The smallest set of devices that 00_scope.md R8(a) allows. -/
def bootDevices (stdCap : Nat) : List Device :=
  [{ kind := .gpu, range := { base := 0, size := gpuBlockSize }, backing := [] },
   { kind := .sys, range := { base := gpuBlockSize, size := sysBlockSize }, backing := [] },
   { kind := .videoRam, range := { base := gpuBlockSize + sysBlockSize, size := stdCap }, backing := [] }]

/-- The host's boot that brings the block to where an operation is admitted, in place of the
sequence of 70_reset_and_hazards.md R442 to R446: nothing where it already is, else a phase of its
row, and devices where none is attached (ATTACH needs none). -/
def State.bootFor (s : State) (i : Instr) : State :=
  let t := if s.admits i then s else
    { s with
      fault := none
      phase := (Admission.sample (admission i)).1
      running := (Admission.sample (admission i)).2 }
  match i, t.devs with
  | .attach _, _ => t
  | _, [] => { t with devs := bootDevices t.cfg.stdCap, nextFree := gpuBlockSize + sysBlockSize + t.cfg.stdCap }
  | _, _ :: _ => t

/-- The request that presents a bare word of the table at the port of its most specific row. -/
def State.tableRequest (s : State) (w : TxWord) : Request :=
  { word := w
    port := match tablePort w with
      | .device k => .device ((s.devs.findIdx? (fun d => d.kind == k)).getD 0)
      | .requester => .requester
      | .coprocessor _ => .requester
    split := []
    beside := Beside.empty }

/-- An entry is no operation in progress that holds an operation up. -/
def State.lets (s : State) (i : Instr) (e : Entry) : Bool :=
  match e with
  | .request _ => true
  | .resume o => !s.holdsUp o i

/-- Put a bare word of the table at the head of the inbox, after the boot its operation needs, and without
what holds it up. -/
def State.placeWord (s : State) (nbits w : Nat) : State :=
  match decodeTableWord nbits w with
  | some i =>
    let t := s.bootFor i
    { t with inbox := .request (t.tableRequest (BitVec.ofNat 40 w)) :: t.inbox.filter (t.lets i) }
  | none => { s with inbox := .request (s.tableRequest (BitVec.ofNat 40 w)) :: s.inbox }

end Sys2Proof.Machine
end

