-- ==== Sys2Proof/Machine/Step.lean ====
section
/-! DEFINITION. One step of the block: one transaction, host operation or command dispatch
(00_scope.md R6), the oldest one presented. -/

namespace Sys2Proof.Machine

/-- Take the entry at the head of the inbox, or the operation in progress that holds it up: a request is decoded
at its port and run, whole or, where it is split, its first atomic step; an operation in progress takes its
next one. -/
def step (s : State) : Host.Outcome State Fault Refusal :=
  match s.nextEntries with
  | [] => .refused .noRequest
  | .resume o :: rest => s.goOn o rest
  | .request r :: rest =>
    match s.decodeRequest r with
    | .error e => .refused (.reservedWord e)
    | .ok i =>
      match (s.latch r rest).divided r i with
      | some o => (s.latch r rest).begin i o
      | none => exec i (s.latch r rest)

/-- `s` with a bare word of the opcode table placed where the next step takes it, and the boot done
that brings the block to where the word's operation is admitted (log 1). -/
def State.withFetchWord (s : State) (nbits w : Nat) : State := s.placeWord nbits w

end Sys2Proof.Machine
end

