-- ==== Sys2Proof/Machine/Pseudo.lean ====
section
/-! DEFINITION. The pseudo-instructions of the transaction language (30_encoding.md R136): each expands
to words at the bus addresses of the GPU's registers. -/

namespace Sys2Proof.Machine

/-- The pseudo-instructions (30_encoding.md R136). -/
inductive Pseudo where
  | setPal (i : Byte) (w : Word)
  | getPal (i : Byte)
  | setEpal (i : Byte) (w : Word)
  | setGlyph (g : Byte) (rows : Vector Byte 8)
  | blitSet (a p w : Word)
  | setMode (m r : Byte)
  | cmd (op : Byte)
  deriving DecidableEq, Repr

/-- A register name stands for the base of its device plus its offset (30_encoding.md R135). -/
def registerAddr (base : Word) (off : Nat) : Word := base + BitVec.ofNat 16 off

/-- The transactions a pseudo-instruction expands to, in order, for a GPU at `base` (R136). -/
def Pseudo.expand (base : Word) : Pseudo → List Instr
  | .setPal i w => [.wr (registerAddr base regPalIndex) i, .wrw (registerAddr base 0x06) w]
  | .getPal i => [.wr (registerAddr base regPalIndex) i, .rdw (registerAddr base 0x06)]
  | .setEpal i w => [.wr (registerAddr base regEpalIndex) i, .wrw (registerAddr base 0x09) w]
  | .setGlyph g rows =>
    .wr (registerAddr base regGlyphIndex) g ::
      rows.toList.zipIdx.map (fun b => .wr (registerAddr base (0x0C + b.2)) b.1)
  | .blitSet a p w =>
    [.wrw (registerAddr base regBlitAddr) a, .wrw (registerAddr base regBlitPitch) p,
     .wrw (registerAddr base regBlitWidth) w]
  | .setMode m r => [.wr (registerAddr base regRes) r, .wr (registerAddr base regMode) m]
  | .cmd op => [.wr (registerAddr base regCmd) op]

end Sys2Proof.Machine
end

