-- ==== Sys2Proof/Safety.lean ====
section
/-! DEFINITION. The terms in which claims are stated: the invariants of the block, the hypotheses under
which an operation is admitted and routed, and what it means that an operation changed one thing and
left the rest. -/

namespace Sys2Proof.Machine

/-! ## Invariants -/

/-- The devices' ranges are contiguous in attach order from `a` up to `e` (10_state.md R33). -/
def LayoutFrom (a : Nat) : List Device → Nat → Prop
  | [], e => a = e
  | d :: rest, e => d.range.base = a ∧ LayoutFrom (a + d.range.size) rest e

/-- A device's backing is canonical and inside its range, and a register block is inside its range
(10_state.md R35; 00_scope.md R8(e)). -/
def Device.Sound (d : Device) : Prop :=
  d.backing.wf = true ∧ d.backing.below d.range.size = true ∧
    (d.kind = .gpu → gpuBlockSize ≤ d.range.size) ∧ (d.kind = .sys → sysBlockSize ≤ d.range.size)

/-- The bus layout of 10_state.md R33 and the canonical form of every memory. -/
structure State.Inv (s : State) : Prop where
  layout : LayoutFrom 0 s.devs s.nextFree
  bound : s.nextFree ≤ busSize
  devices : ∀ d ∈ s.devs, d.Sound
  ext : s.gpu.ext.wf = true ∧ s.gpu.ext.below extMemSize = true

/-- The depths a plane can have (10_state.md R59). -/
def LegalBpp (b : Nat) : Prop := b = 1 ∨ b = 2 ∨ b = 4 ∨ b = 8

/-- The decoded display state is the one the last accepted mode and row name, and it is legal: the row
allows the standard plane's mode, and every enabled plane fits its buffer ("an illegal combination is
never committed", 43_gpu_decode.md R282, R283, R291). -/
structure State.LegalDisplay (s : State) : Prop where
  row : s.gpu.dec.row = s.gpu.accRes
  width : s.gpu.dec.width = (entry s.cfg.dmt s.gpu.accRes).resWidth
  height : s.gpu.dec.height = (entry s.cfg.dmt s.gpu.accRes).resHeight
  stdEn : s.gpu.dec.stdEn = s.gpu.accMode.getLsbD 3
  stdBitmap : s.gpu.dec.stdBitmap = s.gpu.accMode.getLsbD 2
  extEn : s.gpu.dec.extEn = s.gpu.accMode.getLsbD 7
  reserved : s.gpu.accMode.getLsbD 4 = false
  stdDepth : s.gpu.dec.stdBpp = depthBpp (s.gpu.accMode.extractLsb' 0 2)
  extDepth : s.gpu.dec.extBpp = depthBpp (s.gpu.accMode.extractLsb' 5 2)
  bitmap : s.gpu.dec.stdEn = true → s.gpu.dec.stdBitmap = true →
    (entry s.cfg.dmt s.gpu.accRes).stdBitmapValid = true ∧
      s.gpu.dec.width * s.gpu.dec.height / 8 * s.gpu.dec.stdBpp ≤ s.cfg.stdCap
  text : s.gpu.dec.stdEn = true → s.gpu.dec.stdBitmap = false →
    (entry s.cfg.dmt s.gpu.accRes).textValid = true ∧
      textBytes s.gpu.dec.width s.gpu.dec.height ≤ s.cfg.stdCap
  extended : s.gpu.dec.extEn = true →
    s.gpu.dec.width * s.gpu.dec.height / 8 * s.gpu.dec.extBpp ≤ s.cfg.extCap

/-- After Init the display is legal; before it `gpu.dec` is unspecified (70_reset_and_hazards.md R441). -/
def State.DisplayInv (s : State) : Prop := s.phase ≠ .construct → s.LegalDisplay

/-! ## Hypotheses: admission and routing -/

/-- Bus transactions are admitted (70_reset_and_hazards.md R447). -/
def State.BusOpen (s : State) : Prop := s.fault = none ∧ (s.phase = .ready ∨ s.phase = .run)

/-- The main loop and the clock agent run (70_reset_and_hazards.md R447). -/
def State.LoopOpen (s : State) : Prop := s.fault = none ∧ s.phase = .run ∧ s.running = true

/-- A DEV word at a device of a kind is admitted: the bus is open and such a device is its target. -/
def State.PortOpen (s : State) (k : DeviceKind) : Prop :=
  s.BusOpen ∧ ∃ d, s.devs[s.target]? = some d ∧ d.kind = k

/-- The i-th device contains a bus address (40_bus.md R163). -/
def State.Maps (s : State) (a : Word) (i : Nat) (d : Device) : Prop :=
  s.devs[i]? = some d ∧ d.range.base ≤ a.toNat ∧ a.toNat < d.range.base + d.range.size

/-- No device contains a bus address (10_state.md R34). -/
def State.Unmapped (s : State) (a : Word) : Prop := ∀ i d, ¬ s.Maps a i d

/-- There is one VIDEO_RAM device, as 00_scope.md R8(a) requires. -/
def State.OneVideoRam (s : State) (e : Device) : Prop := s.devs.filter (fun d => d.kind == .videoRam) = [e]

/-- The host's four create calls all succeed (44_gpu_render.md R332, R336). -/
def State.SurfacesCreated (s : State) : Prop :=
  s.beside.surfaces.window = true ∧ s.beside.surfaces.standardTexture = true ∧
    s.beside.surfaces.extendedTexture = true ∧ s.beside.surfaces.renderTarget = true

/-- The states in which an operation has a step: its row of the admission table
(70_reset_and_hazards.md R447). -/
def State.Admits (s : State) (i : Instr) : Prop :=
  s.fault = none ∧
    (match i with
     | .attach _ | .init => s.phase = .construct
     | .load => s.phase = .ready
     | .tick | .update _ | .event | .render => s.phase = .run ∧ s.running = true
     | .shutdown => s.phase = .run
     | .quit => (s.phase = .ready ∨ s.phase = .run) ∧ s.running = false
     | _ => s.phase = .ready ∨ s.phase = .run)

/-- The states in which an operation goes on once it has begun: those that admit it, but that TICK, UPDATE, EVENT
and RENDER are finished when SHUTDOWN clears the running flag (70_reset_and_hazards.md R447; 40_bus.md R180; that the
rest of the main loop's iteration is not admitted then is a DESIGN CHOICE, log 24).
None of phase CONSTRUCT is ever in progress (log 12). -/
def State.GoesOn (s : State) (i : Instr) : Prop :=
  s.fault = none ∧
    (match i with
     | .attach _ | .init => False
     | .load => s.phase = .ready
     | .tick | .update _ | .event | .render | .shutdown => s.phase = .run
     | .quit => (s.phase = .ready ∨ s.phase = .run) ∧ s.running = false
     | _ => s.phase = .ready ∨ s.phase = .run)

/-- The operations of the host's thread: it attaches, initialises, loads, runs the lifecycle fan-outs and renders
(20_memory.md R100; 70_reset_and_hazards.md R442 to R448). -/
def IsHostOperation : Instr → Prop
  | .attach _ | .init | .load | .activate | .deactivate | .update _ | .event | .render | .quit => True
  | _ => False

/-- Two operations of one agent: of the clock agent, of the host's thread, of SHUTDOWN's caller, or of a
requester on the bus (20_memory.md R100; 60_exceptions.md R422; log 23). -/
def SameAgent (i j : Instr) : Prop :=
  (i = .tick ↔ j = .tick) ∧ (IsHostOperation i ↔ IsHostOperation j) ∧ (i = .shutdown ↔ j = .shutdown)

/-- An operation in progress goes before an operation: one of the same agent does, and so does a TICK before an
operation of the host once `running` is clear, since the shutdown joins the clock thread
(70_reset_and_hazards.md R448; log 23). -/
def State.GoesBefore (s : State) (o : Ongoing) (i : Instr) : Prop :=
  SameAgent o.op i ∨ (o.op = .tick ∧ IsHostOperation i ∧ s.running = false)

/-- No operation in progress goes before an operation. -/
def State.Free (s : State) (i : Instr) : Prop := ∀ o, Entry.resume o ∈ s.inbox → ¬ s.GoesBefore o i

/-- The next step of the block is one of an operation: the request at the head of the inbox asks for it and none
goes before it, or it is the operation in progress there, or the first one that goes before that request. -/
def State.NextIs (s : State) (i : Instr) : Prop :=
  (∃ r rest, s.inbox = .request r :: rest ∧ s.decodeRequest r = .ok i ∧ s.Free i) ∨
  (∃ o rest, s.inbox = .resume o :: rest ∧ o.op = i) ∨
  (∃ r pre o post j, s.inbox = .request r :: (pre ++ .resume o :: post) ∧ s.decodeRequest r = .ok j ∧
    s.GoesBefore o j ∧ (∀ x, Entry.resume x ∈ pre → ¬ s.GoesBefore x j) ∧ o.op = i)

/-- The phase and the running flag go forward over a step of an operation (70_reset_and_hazards.md R446 to R449). -/
def GoesForward (i : Instr) (s t : State) : Prop :=
  (t.phase = s.phase ∨ (s.phase = .construct ∧ t.phase = .ready ∧ i = .init) ∨
    (s.phase = .ready ∧ t.phase = .run ∧ i = .activate) ∨
    ((s.phase = .ready ∨ s.phase = .run) ∧ s.running = false ∧ t.phase = .done ∧ i = .quit)) ∧
  (t.running = s.running ∨ (t.running = true ∧ s.phase = .ready ∧ i = .activate) ∨
    (t.running = false ∧ i = .shutdown))

/-- The operations in progress are what is left of operations that began, each can go on until a fatal error or the
end of the run, and no two of them are of one agent (20_memory.md R100, R102; logs 10 and 23). -/
structure State.InboxInv (s : State) : Prop where
  proper : ∀ o, Entry.resume o ∈ s.inbox → s.phase ≠ .construct ∧ o.steps ≠ [] ∧
    ∃ (dirty : Bool) (steps : List AtomicStep),
      ({ s with beside := o.beside, envDirty := dirty } : State).atomicSteps o.op = some steps ∧ o.steps <:+ steps
  goesOn : ∀ o, Entry.resume o ∈ s.inbox → s.fault = none → s.phase ≠ .done → s.GoesOn o.op
  single : s.inbox.Pairwise (fun x y => ∀ o p, x = .resume o → y = .resume p → ¬ SameAgent o.op p.op)

/-- The operations that consist of more than one atomic step and that other agents' steps can interrupt
(20_memory.md R91, R102; log 12 for INIT, which is not one). -/
def IsDivided : Instr → Prop
  | .rdw _ | .wrw _ _ | .rdwD _ | .wrwD _ _ | .quit | .activate | .deactivate | .event | .update _ | .render
  | .tick | .load => True
  | _ => False

/-! ## Frames -/

/-- The devices are the same ones at the same places. -/
def SameDevices (s t : State) : Prop :=
  t.devs.map (fun d => (d.kind, d.range)) = s.devs.map (fun d => (d.kind, d.range))

/-- Every backing byte outside `stored` reads as before, through the read of one byte. -/
def BytesKept (s t : State) (stored : Nat → Nat → Prop) : Prop :=
  ∀ i off, ¬ stored i off → t.devByte i off = s.devByte i off

/-- Nothing but backing bytes changed: every other field is as before, the devices are the same, and
every byte outside `stored` reads as before. -/
def OnlyBytes (s t : State) (stored : Nat → Nat → Prop) : Prop :=
  { t with devs := s.devs } = s ∧ SameDevices s t ∧ BytesKept s t stored

/-- One backing byte was stored and nothing else changed. -/
def StoresByte (s t : State) (i off : Nat) (v : Byte) : Prop :=
  t.devByte i off = v ∧ OnlyBytes s t (fun j k => j = i ∧ k = off)

/-- The state with one more response. -/
def Answered (s : State) (r : Response) : State := { s with resp := s.resp ++ [r] }

/-- Everything outside the devices, the GPU's internal state and the dirty flag is as before, and the
devices are the same ones. -/
def OutsideKept (s t : State) : Prop :=
  { t with devs := s.devs, gpu := s.gpu, envDirty := s.envDirty } = s ∧ SameDevices s t

/-! ## Terms of the encodings -/

/-- The words that 30_encoding.md R131 reserves at the requester's port, by the bits of the word. -/
def ReservedWord (w : TxWord) : Prop :=
  let cls := (w.extractLsb' 36 4).toNat
  let hop := (w.extractLsb' 24 8).toNat
  let arg := (w.extractLsb' 0 17).toNat
  (4 ≤ cls ∧ cls ≠ 8) ∨
  (cls < 4 ∧ w.extractLsb' 32 3 ≠ 0) ∨
  (cls = 8 ∧ (w.extractLsb' 32 4 ≠ 0 ∨ w.extractLsb' 17 7 ≠ 0)) ∨
  (cls = 1 ∧ w.extractLsb' 8 8 ≠ 0) ∨
  ((cls = 0 ∨ cls = 2) ∧ w.extractLsb' 0 16 ≠ 0) ∨
  (cls = 8 ∧ (hop = 0 ∨ 0x0B < hop)) ∨
  (cls = 8 ∧ hop = 0x01 ∧ 65536 < arg) ∨
  (cls = 8 ∧ hop ≠ 0x01 ∧ hop ≠ 0x07 ∧ arg ≠ 0)

/-! ## Terms of the decode pass (43_gpu_decode.md) -/

/-- `f` bits per pixel is what halving `b` until the plane fits gives (43_gpu_decode.md R283): `b`, or a
halving of it whose double does not fit. -/
def HalvedToFit (b area8 cap f : Nat) : Prop :=
  (∃ k, f = b / 2 ^ k) ∧ area8 * f ≤ cap ∧ (f = b ∨ cap < area8 * (2 * f))

/-- What a write that ran a decode pass on the i-th device leaves, for each verdict
(43_gpu_decode.md R287, R288, R289). -/
def PassOutcome (s t : State) (i : Nat) : PassResult → Prop
  | .accept r =>
    t.devByte i 0x00 = r.mode ∧ t.devByte i 0x01 = r.res ∧
    t.devByte i 0x03 = hi8 r.top ∧ t.devByte i 0x04 = lo8 r.top ∧
    t.gpu = { s.gpu with dec := r.dec, accMode := r.mode, accRes := r.res } ∧
    BytesKept s t (fun j off => j = i ∧ (off = 0x00 ∨ off = 0x01 ∨ off = 0x03 ∨ off = 0x04))
  | .reject =>
    t.devByte i 0x00 = s.gpu.accMode ∧ t.devByte i 0x01 = s.gpu.accRes ∧ t.gpu = s.gpu ∧
    BytesKept s t (fun j off => j = i ∧ (off = 0x00 ∨ off = 0x01))
  | .overrun =>
    t.devByte i 0x1C = 11 ∧
    t.devByte i 0x00 = s.gpu.accMode ∧ t.devByte i 0x01 = s.gpu.accRes ∧ t.gpu = s.gpu ∧
    BytesKept s t (fun j off => j = i ∧ (off = 0x00 ∨ off = 0x01 ∨ off = 0x1C))

/-- The decoded display state and the accepted pair are as before (10_state.md R45, R46). -/
def DecodeKept (s t : State) : Prop :=
  t.gpu.dec = s.gpu.dec ∧ t.gpu.accMode = s.gpu.accMode ∧ t.gpu.accRes = s.gpu.accRes

/-- The same, but for the host window (42_gpu_registers.md R235). -/
def DecodeKeptButWindow (s t : State) : Prop :=
  { t.gpu.dec with window := s.gpu.dec.window } = s.gpu.dec ∧ t.gpu.accMode = s.gpu.accMode ∧
    t.gpu.accRes = s.gpu.accRes

/-- The addresses that a transaction of the CPU core writes (40_bus.md R166, R168, R175). -/
def CpuTransaction.written : CpuTransaction → List Word
  | .rd _ | .rdw _ => []
  | .wr a _ => [a]
  | .wrw a _ => [a, a + 1]

/-- The addresses that an operation writes by normal byte transactions. -/
def State.written (s : State) : Instr → List Word
  | .wr a _ => [a]
  | .wrw a _ => [a, a + 1]
  | .tick => s.beside.cpu.flatMap CpuTransaction.written
  | _ => []

/-- An address is that of a byte of a GPU. -/
def State.AtGpuByte (s : State) (a : Word) (off : Nat) : Prop :=
  ∃ i d, s.Maps a i d ∧ d.kind = .gpu ∧ a.toNat = d.range.base + off

/-! ## Terms of the blit port (45_blit.md) -/

/-- The port of the i-th device has advanced once from `s` to `t` (45_blit.md R345): the address and the
counter on naturals and integers, every other backing byte as before. -/
def PortAdvanced (s t : State) (i : Nat) : Prop :=
  let a := (s.blitAddr i).toNat
  let p := (s.blitPitch i).toNat
  let w := (s.blitWidth i).toNat
  let c := s.gpu.widthCounter.toNat
  (1 < c → (t.blitAddr i).toNat = (a + 1) % 65536 ∧ t.gpu.widthCounter.toNat = c - 1) ∧
  (c ≤ 1 → ((t.blitAddr i).toNat : Int) = ((a : Int) + 1 + p - w) % 65536 ∧
    t.gpu.widthCounter.toNat = w) ∧
  BytesKept s t (fun j off => j = i ∧ (off = 0x14 ∨ off = 0x15)) ∧ SameDevices s t

/-- A data-port access: a read or a write of GPU_BLIT_DATA. -/
def IsPortAccess (i : Instr) : Prop := i = .rdGpuBlitData ∨ ∃ v, i = .wrGpuBlitData v

/-! ## Runs of operations -/

/-- Some operations one after another, without the inbox. -/
def run : List Instr → State → Host.Outcome State Fault Refusal
  | [], s => .next s
  | i :: rest, s =>
    match exec i s with
    | .next t => run rest t
    | .fault f => .fault f
    | .refused r => .refused r

/-- The operation of a transaction of the CPU core. -/
def CpuTransaction.instr : CpuTransaction → Instr
  | .rd a => .rd a
  | .wr a v => .wr a v
  | .rdw a => .rdw a
  | .wrw a w => .wrw a w

/-- The operations that an agent other than the host's debug path and loader issues once the block is
booted: no debug write, no LOAD (60_exceptions.md R420). -/
def IsNormal : Instr → Bool
  | .wrD _ _ | .wrwD _ _ | .devWrD _ _ | .romWrD _ _ | .load => false
  | _ => true

/-! ## Operations in atomic steps (20_memory.md R91, R102; log 10) -/

/-- `s` takes the first of a word read's two byte transactions now, and the second one when the rest of the
operation is at the head of the inbox, whatever happened in between; its response is the whole word. `u`
is `s` with the request taken out of its inbox. -/
def SplitsRead (s u : State) (n : Nat) (first second : Instr) : Prop :=
  ∃ (o : Ongoing) (t : State) (hi : Byte), exec first u = .next t ∧ t.resp = [.byte hi] ∧
    step s = .next { t with resp := [], inbox := u.inbox.take n ++ .resume o :: u.inbox.drop n } ∧
    ∀ (v : State) (q : List Entry), v.inbox = .resume o :: q → v.BusOpen →
      ∃ (x : State) (lo : Byte),
        exec second { v with inbox := q, beside := u.beside, resp := [] } = .next x ∧ x.resp = [.byte lo] ∧
        step v = .next { x with resp := [.word (hi ++ lo)] }

/-- The same of a word write's two byte transactions. -/
def SplitsWrite (s u : State) (n : Nat) (first second : Instr) : Prop :=
  ∃ (o : Ongoing) (t : State), exec first u = .next t ∧
    step s = .next { t with inbox := u.inbox.take n ++ .resume o :: u.inbox.drop n } ∧
    ∀ (v : State) (q : List Entry), v.inbox = .resume o :: q → v.BusOpen →
      ∃ x : State, exec second { v with inbox := q, beside := u.beside, resp := [] } = .next x ∧
        step v = .next x

/-- `t` with what is left of an operation put back after `n` entries, unless a fatal error ended the
operation or nothing is left. -/
def PutBack (t : State) (n : Nat) (o : Ongoing) : State :=
  if t.fault = none ∧ o.steps ≠ [] then { t with inbox := t.inbox.take n ++ .resume o :: t.inbox.drop n } else t

/-! ## Record text (47_boot_image.md R387) -/

/-- A character is a hexadecimal digit of a value, in upper or in lower case. -/
def HexDigit (c : Byte) (n : Nat) : Prop :=
  (n < 10 ∧ c.toNat = 0x30 + n) ∨ (10 ≤ n ∧ n < 16 ∧ (c.toNat = 0x41 + (n - 10) ∨ c.toNat = 0x61 + (n - 10)))

/-- Characters spell bytes: two digits for each, the more significant first. -/
def SpellsBytes : List Byte → List Byte → Prop
  | [], [] => True
  | a :: b :: text, v :: bytes => HexDigit a (v.toNat / 16) ∧ HexDigit b (v.toNat % 16) ∧ SpellsBytes text bytes
  | _, _ => False

/-- A line is a well-formed record, with any checksum (47_boot_image.md R385, R387). -/
def SpellsRecord (line : List Byte) (a : Word) (type : Byte) (data : List Byte) : Prop :=
  data.length < 256 ∧ ∃ (digits : List Byte) (check : Byte), line = 0x3A :: digits ∧
    SpellsBytes digits (BitVec.ofNat 8 data.length :: hi8 a :: lo8 a :: type :: data ++ [check])

/-- A line writes nothing and does not end the text: it is malformed, or a record of type 0x02 to 0xFF
(47_boot_image.md R384, R387). -/
def SkippedLine (line : List Byte) : Prop :=
  ∀ (a : Word) (type : Byte) (data : List Byte), SpellsRecord line a type data → 2 ≤ type.toNat

/-- A line of a text with its line end, LF or CR LF (47_boot_image.md R381). -/
def EndedLine (line text : List Byte) : Prop :=
  0x0A ∉ line ∧ ((text = line ++ [0x0A] ∧ line.getLast? ≠ some 0x0D) ∨ text = line ++ [0x0D, 0x0A])

/-- Lines with their line ends, each of which is skipped. -/
def SkippedText (text : List Byte) : Prop :=
  ∃ parts : List (List Byte), text = parts.flatten ∧
    ∀ part ∈ parts, ∃ line, EndedLine line part ∧ SkippedLine line

/-- A text that writes nothing: lines that are skipped, and then an end-of-file record and whatever follows
it, or a last line with no line end that is skipped or is such a record
(47_boot_image.md R383, R384, R386). -/
def WritesNothing (text : List Byte) : Prop :=
  ∃ (skipped last : List Byte), text = skipped ++ last ∧ SkippedText skipped ∧
    ((∃ (line part tail : List Byte) (a : Word) (data : List Byte),
        last = part ++ tail ∧ EndedLine line part ∧ SpellsRecord line a 0x01 data) ∨
     (0x0A ∉ last ∧ ∀ (a : Word) (type : Byte) (data : List Byte), SpellsRecord last a type data →
        1 ≤ type.toNat))

/-- A text whose first line that is not skipped is a data record, with `rest` after that line: nothing, where it
is the last line and has no line end (47_boot_image.md R381, R386). -/
def BeginsWithRecord (text : List Byte) (a : Word) (data rest : List Byte) : Prop :=
  ∃ before line : List Byte, SkippedText before ∧ SpellsRecord line a 0x00 data ∧
    ((text = before ++ line ∧ rest = []) ∨ ∃ part, EndedLine line part ∧ text = before ++ part ++ rest)

end Sys2Proof.Machine
end

