-- ==== Sys2Proof/Certificates/Slice0/Obligations.lean ====
section
/-! DEFINITION. The statements for the provers, from the numbered rules of spec/. -/

section

open Sys2Proof Sys2Proof.Machine

/-! ## Encoding and the step -/

/-- Every operation a port can spell is decoded from its encoding, with every operand
(30_encoding.md R122 to R129). -/
def Obligations.DecodeEncodesBack : Prop :=
  ∀ (p : Port) (i : Instr), p.admits i = true → i.wellFormed = true → decode p (encode i) = .ok i

/-- A word has one meaning at a port: what it decodes to is well formed, is spelled at that port, and
encodes to that very word (30_encoding.md R122 to R131). -/
def Obligations.EncodeDecodesBack : Prop :=
  ∀ (p : Port) (w : TxWord) (i : Instr), decode p w = .ok i →
    encode i = w ∧ i.wellFormed = true ∧ p.admits i = true

/-- A reserved word at the head of the inbox is refused, and every other word spells an operation
(30_encoding.md R131). -/
def Obligations.ReservedWordsRefused : Prop :=
  ∀ (s : State) (r : Request) (rest : List Entry), s.inbox = .request r :: rest → r.port = .requester →
    (ReservedWord r.word → ∃ e, step s = .refused (.reservedWord e)) ∧
    (¬ ReservedWord r.word → ∃ i, s.decodeRequest r = .ok i)

/-- Some words of the spec decode to the operations they stand for. Those of ATTACH 65536, INIT, UPDATE, LOAD, WR,
RDW, WRW and WR.D are written out in 95_test_vectors.md, and so is its vector A8, 0x8001020000, which R131
reserves already for its bit 17. The others are written out here from the rules: 0x8001010001, an ATTACH size
above 65536 (30_encoding.md R129, R131), the DEV words 0x1000000008, 0x00001A0000, 0x10000000FF and
0x1800000012 (R124, R125) and the COP word 0x10001B0042 (R128). -/
def Obligations.SpecWordsDecode : Prop :=
  decode .requester 0x8001010000 = .ok (.attach 65536) ∧
  decode .requester 0x8002000000 = .ok .init ∧
  decode .requester 0x8007000010 = .ok (.update 16) ∧
  decode .requester 0x800A000000 = .ok .load ∧
  decode .requester 0x102010005A = .ok (.wr 0x2010 0x5A) ∧
  decode .requester 0x20FFFE0000 = .ok (.rdw 0xFFFE) ∧
  decode .requester 0x30E006F00F = .ok (.wrw 0xE006 0xF00F) ∧
  decode .requester 0x18E01C0000 = .ok (.wrD 0xE01C 0x00) ∧
  decode .requester 0x8001020000 = .error .reservedBits ∧
  decode .requester 0x8001010001 = .error .attachSize ∧
  decode (.device .gpu) 0x1000000008 = .ok (.wrGpuMode 0x08) ∧
  decode (.device .gpu) 0x00001A0000 = .ok .rdGpuBlitData ∧
  decode (.device .sys) 0x10000000FF = .ok (.wrSysSpeed 0xFF) ∧
  decode (.device .rom) 0x1800000012 = .ok (.romWrD 0x0000 0x12) ∧
  decode (.coprocessor [0x01, 0x02]) 0x10001B0042 = .ok (.cmdUnknown 0x42)

/-- When the request at the head of the inbox decodes to an instruction, no operation in progress goes before it, and
it is not split or the instruction is one atomic step, the step runs that instruction, on the state that took the
request and changed nothing else (20_memory.md R102; 30_encoding.md R127, R134). Where an operation in progress
goes before it, the step is that operation's, with the request still in the inbox. That a step takes the head of the
inbox and sets `target` is the model's choice (log 2), and so are what goes before it (log 23) and that no response
is given yet (log 13). -/
def Obligations.StepRunsDecoded : Prop :=
  ∀ (s : State) (r : Request) (rest : List Entry) (i : Instr),
    s.inbox = .request r :: rest → s.decodeRequest r = .ok i →
    (s.Free i → (r.split = [] ∨ ¬ IsDivided i) →
      ∃ u, step s = exec i u ∧
        u.inbox = rest ∧ u.beside = r.beside ∧ u.resp = [] ∧
        u.target = (match r.port with | .requester => s.target | .device j => j | .coprocessor j => j) ∧
        { u with inbox := s.inbox, beside := s.beside, resp := s.resp, target := s.target } = s) ∧
    (∀ (pre post : List Entry) (o : Ongoing), rest = pre ++ .resume o :: post → s.GoesBefore o i →
      (∀ x, Entry.resume x ∈ pre → ¬ s.GoesBefore x i) →
      step s = step { s with inbox := .resume o :: .request r :: (pre ++ post) })

/-- A word transaction split by its request runs the byte transaction at its address now and the one at the next
address after `n` other entries of the inbox, whatever their steps do, where no operation in progress goes before it: the high byte first; a read answers its
16-bit word with the second, whatever the first one's byte was (20_memory.md R91, R108; 40_bus.md R167, R168,
R171, R181). That the request says where the second falls is the model's choice (log 10), and so is that each
step starts with no response (log 13). -/
def Obligations.StepSplitsWord : Prop :=
  ∀ (s u : State) (r : Request) (rest : List Entry) (n : Nat) (gaps : List Nat) (a w : Word),
    s.inbox = .request r :: rest → r.port = .requester → r.split = n :: gaps → s.BusOpen →
    (∀ i, s.decodeRequest r = .ok i → s.Free i) →
    u = { s with inbox := rest, beside := r.beside, resp := [] } →
    (s.decodeRequest r = .ok (.rdw a) → SplitsRead s u n (.rd a) (.rd (a + 1))) ∧
    (s.decodeRequest r = .ok (.rdwD a) → SplitsRead s u n (.rdD a) (.rdD (a + 1))) ∧
    (s.decodeRequest r = .ok (.wrw a w) →
      SplitsWrite s u n (.wr a (w.extractLsb' 8 8)) (.wr (a + 1) (w.extractLsb' 0 8))) ∧
    (s.decodeRequest r = .ok (.wrwD a w) →
      SplitsWrite s u n (.wrD a (w.extractLsb' 8 8)) (.wrD (a + 1) (w.extractLsb' 0 8)))

/-- An operation that other agents can interrupt is its atomic steps one after the other; a fan-out's are the
callbacks of the devices in attach order, and UPDATE's rebuild ends with the clearing of the dirty flag. A word
transaction's are its two byte transactions, TICK's are the byte transactions of the CPU step in order and then the
interval, and LOAD's are the debug writes of its data bytes in order, record by record (20_memory.md R91, R108;
40_bus.md R175; 47_boot_image.md R381). A byte step is that byte transaction, and a word read holds its first byte
until the second one answers the word. Split by its request, it takes its first atomic step now and its next one when the rest of it is at the head of the
inbox, so that another agent's step may fall between any two, as between OnActivate and that clearing
(20_memory.md R102; 40_bus.md R172, R182; 60_exceptions.md R401). It begins in the states of its admission row and
goes on in those in which it may (70_reset_and_hazards.md R447). The form of the splitting is the model's
choice (logs 10 and 12). -/
def Obligations.DividedOperations : Prop :=
  (∀ (i : Instr) (s : State), (s.atomicSteps i = none ↔ ¬ IsDivided i) ∧
    ∀ (steps : List AtomicStep) (h : Byte), s.Admits i → s.atomicSteps i = some steps →
      exec i s = .next (runSteps steps h s)) ∧
  (∀ (s : State) (dt : BitVec 17) (kinds : List DeviceKind), kinds = s.devs.map (·.kind) →
    let fan := fun (c : Callback) => (List.range kinds.length).zipWith (fun i k => AtomicStep.callback c k i) kinds
    s.atomicSteps (.update dt) = some ((if s.envDirty then
      fan .deactivate ++ fan .activate ++ [.close .clearDirty] else []) ++ fan (.update dt)) ∧
    s.atomicSteps .activate = some (fan .activate ++ [.close .enterRun]) ∧
    s.atomicSteps .deactivate = some (fan .deactivate) ∧ s.atomicSteps .render = some (fan .render) ∧
    s.atomicSteps .event = some (fan (.event s.beside.event)) ∧
    s.atomicSteps .quit = some (fan .quit ++ [.close .finish])) ∧
  (∀ (s : State) (a w : Word),
    s.atomicSteps (.rdw a) = some [.readHigh a false, .readLow (a + 1) false] ∧
    s.atomicSteps (.rdwD a) = some [.readHigh a true, .readLow (a + 1) true] ∧
    s.atomicSteps (.wrw a w) =
      some [.write a (w.extractLsb' 8 8) false, .write (a + 1) (w.extractLsb' 0 8) false] ∧
    s.atomicSteps (.wrwD a w) =
      some [.write a (w.extractLsb' 8 8) true, .write (a + 1) (w.extractLsb' 0 8) true] ∧
    s.atomicSteps .tick = some ((s.beside.cpu.map fun c => match c with
      | .rd b => [AtomicStep.read b false]
      | .wr b v => [.write b v false]
      | .rdw b => [.readHigh b false, .readLow (b + 1) false]
      | .wrw b x => [.write b (x.extractLsb' 8 8) false, .write (b + 1) (x.extractLsb' 0 8) false]).flatten ++
        [.close (.interval s.beside.interval)])) ∧
  (∀ (s : State), (WritesNothing s.beside.text → s.atomicSteps .load = some []) ∧
    ∀ (a : Word) (data rest : List Byte), BeginsWithRecord s.beside.text a data rest →
      ∃ later, ({ s with beside := { s.beside with text := rest } } : State).atomicSteps .load = some later ∧
        s.atomicSteps .load =
          some (data.zipIdx.map (fun d => .write (a + BitVec.ofNat 16 d.2) d.1 true) ++ later)) ∧
  (∀ (s : State) (a : Word) (v h : Byte) (dbg : Bool), s.BusOpen →
    ∃ (t u x y z : State) (hi lo : Byte),
      exec (if dbg then .rdD a else .rd a) s = .next t ∧ (AtomicStep.read a dbg).run h s = (h, t) ∧
      exec (if dbg then .wrD a v else .wr a v) s = .next u ∧ (AtomicStep.write a v dbg).run h s = (h, u) ∧
      (AtomicStep.readHigh a dbg).run h s = (hi, x) ∧ t = Answered x (.byte hi) ∧
      (AtomicStep.readLow a dbg).run h s = (h, y) ∧ t = Answered z (.byte lo) ∧ y = Answered z (.word (h ++ lo))) ∧
  (∀ (s : State) (k : DeviceKind) (j : Nat) (h : Byte) (c : Callback), (k = .gpu → c ≠ .activate ∧ c ≠ .render) →
    ((AtomicStep.callback c k j).run h s).2 = s) ∧
  (∀ (s : State) (j : Nat) (h : Byte),
    (s.SurfacesCreated → ((AtomicStep.callback .activate .gpu j).run h s).2 = s) ∧
    (¬ s.SurfacesCreated →
      ((AtomicStep.callback .activate .gpu j).run h s).2 = { s with fault := some .surfaceFailure }) ∧
    ((AtomicStep.close .clearDirty).run h s).2 = { s with envDirty := false } ∧
    (∀ n, ((AtomicStep.close (.interval n)).run h s).2 = { s with achievedInterval := n })) ∧
  (∀ (s u : State) (r : Request) (rest : List Entry) (i : Instr) (n : Nat) (gaps : List Nat) (a : AtomicStep)
      (steps : List AtomicStep),
    s.inbox = .request r :: rest → r.port = .requester → s.decodeRequest r = .ok i → r.split = n :: gaps →
    s.Free i → u = { s with inbox := rest, beside := r.beside, resp := [] } → u.Admits i →
    u.atomicSteps i = some (a :: steps) →
    step s = .next (PutBack (a.run 0 u).2 n
      { op := i, steps := steps, held := (a.run 0 u).1, beside := r.beside, split := gaps })) ∧
  (∀ (s u : State) (o : Ongoing) (rest : List Entry), s.inbox = .resume o :: rest → s.GoesOn o.op →
    u = { s with inbox := rest, beside := o.beside, resp := [] } →
    (o.split = [] → step s = .next (runSteps o.steps o.held u)) ∧
    (∀ (n : Nat) (gaps : List Nat) (a : AtomicStep) (steps : List AtomicStep),
      o.split = n :: gaps → o.steps = a :: steps →
      step s = .next (PutBack (a.run o.held u).2 n
        { op := o.op, steps := steps, held := (a.run o.held u).1, beside := o.beside, split := gaps })))

/-! ## The bus -/

/-- Routing is the half-open interval test, and at most one device satisfies it (40_bus.md R163). -/
def Obligations.RoutingIsTheIntervalTest : Prop :=
  ∀ (s : State) (a : Word), s.Inv →
    (∀ i, s.select a = some i ↔ ∃ d, s.Maps a i d) ∧
    (s.select a = none ↔ s.Unmapped a) ∧
    (∀ i j d e, s.Maps a i d → s.Maps a j e → i = j ∧ a.toNat - d.range.base < d.range.size)

/-- A read of an address that no range covers, normal or debug, answers 0xCC and changes no state
(40_bus.md R165); a write there, normal or debug, is ignored (R166, R170). -/
def Obligations.OpenBus : Prop :=
  ∀ (s : State) (a : Word) (v : Byte), s.BusOpen → s.Unmapped a →
    exec (.rd a) s = .next (Answered s (.byte 0xCC)) ∧
    exec (.rdD a) s = .next (Answered s (.byte 0xCC)) ∧
    exec (.wr a v) s = .next s ∧ exec (.wrD a v) s = .next s

/-- A byte transaction at a mapped address does what the row of the device it is routed to does, at the
device-local offset, the two normal and the two debug ones (40_bus.md R164, R166, R169, R170;
41_device.md R201; 30_encoding.md R125). -/
def Obligations.RoutedTransactionsAreDeviceRows : Prop :=
  ∀ (s : State) (a : Word) (v : Byte) (i : Nat) (d : Device), s.BusOpen → s.Inv → s.Maps a i d →
    let off : Word := a - BitVec.ofNat 16 d.range.base
    (∃ t, exec (deviceRead d.kind off) { s with target := i } = .next t ∧
      exec (.rd a) s = .next { t with target := s.target }) ∧
    (∃ t, exec (deviceWrite d.kind off v) { s with target := i } = .next t ∧
      exec (.wr a v) s = .next { t with target := s.target }) ∧
    (∃ t, exec (.devRdD off) { s with target := i } = .next t ∧
      exec (.rdD a) s = .next { t with target := s.target }) ∧
    (∃ t, exec (deviceDebugWrite d.kind off v) { s with target := i } = .next t ∧
      exec (.wrD a v) s = .next { t with target := s.target })

/-- A word transaction is two byte transactions: the one at the address and then the one at the next address
modulo 65536, the high byte first in a read's response and in a write's data; so for the debug forms
(40_bus.md R167, R168, R171, R181; 20_memory.md R87). -/
def Obligations.WordIsTwoByteTransactions : Prop :=
  ∀ (s : State) (a w : Word), s.BusOpen →
    (∃ (t u : State) (hi lo : Byte),
      exec (.rd a) s = .next t ∧ t.resp = s.resp ++ [.byte hi] ∧
      exec (.rd (a + 1)) t = .next u ∧ u.resp = t.resp ++ [.byte lo] ∧
      exec (.rdw a) s = .next { u with resp := s.resp ++ [.word (hi ++ lo)] }) ∧
    (∃ (hi lo : Byte),
      exec (.rdD a) s = .next (Answered s (.byte hi)) ∧
      exec (.rdD (a + 1)) s = .next (Answered s (.byte lo)) ∧
      exec (.rdwD a) s = .next (Answered s (.word (hi ++ lo)))) ∧
    (∃ (t u : State), exec (.wr a (w.extractLsb' 8 8)) s = .next t ∧
      exec (.wr (a + 1) (w.extractLsb' 0 8)) t = .next u ∧ exec (.wrw a w) s = .next u) ∧
    (∃ (t u : State), exec (.wrD a (w.extractLsb' 8 8)) s = .next t ∧
      exec (.wrD (a + 1) (w.extractLsb' 0 8)) t = .next u ∧ exec (.wrwD a w) s = .next u)

/-- A normal read changes no state except at GPU_BLIT_DATA (and, in this model, at an OTHER device, where
the counter of free draws moves: log 15); no debug read changes any (20_memory.md R92). -/
def Obligations.ReadsChangeNothing : Prop :=
  ∀ (s : State) (a : Word), s.BusOpen →
    ((∀ i d, s.Maps a i d → d.kind ≠ .other ∧ ¬(d.kind = .gpu ∧ a.toNat = d.range.base + 0x1A)) →
      ∃ v, exec (.rd a) s = .next (Answered s (.byte v))) ∧
    (∃ v, exec (.rdD a) s = .next (Answered s (.byte v)))

/-- Read after write, at every address inside a writable device's range with no handler
(20_memory.md R94): RAM, VIDEO_RAM, the unassigned GPU and SYS bytes and the handler-free registers. -/
def Obligations.ReadAfterWrite : Prop :=
  ∀ (s : State) (a : Word) (v : Byte) (i : Nat) (d : Device), s.BusOpen → s.Inv → s.Maps a i d →
    (d.kind = .ram ∨ d.kind = .videoRam ∨ (d.kind = .sys ∧ a.toNat ≠ d.range.base) ∨
      (d.kind = .gpu ∧ (a.toNat - d.range.base ∈ [0x05, 0x08, 0x0B, 0x14, 0x15, 0x16, 0x17] ∨
        0x1D ≤ a.toNat - d.range.base))) →
    ∃ t, exec (.wr a v) s = .next t ∧ exec (.rd a) t = .next (Answered t (.byte v)) ∧
      OnlyBytes s t (fun j off => j = i ∧ off = a.toNat - d.range.base)

/-- A ROM's bytes change only by the debug path and the loader: no normal operation, whatever it is,
changes a ROM device (41_device.md R207; 60_exceptions.md R420; 70_reset_and_hazards.md R456). -/
def Obligations.RomIsWriteProtected : Prop :=
  ∀ (i : Instr) (s t : State) (j : Nat) (d : Device), IsNormal i = true → exec i s = .next t →
    s.devs[j]? = some d → d.kind = .rom → t.devs[j]? = some d

/-! ## Rows at a device's port -/

/-- Debug access at any offset of any device reaches the backing byte and nothing else: no handler, no
flag; a debug write to ROM stores (41_device.md R204, R208). -/
def Obligations.DebugAccess : Prop :=
  ∀ (s : State) (off : Word) (v : Byte) (d : Device), s.BusOpen → s.Inv →
    s.devs[s.target]? = some d → off.toNat < d.range.size →
    exec (.devRdD off) s = .next (Answered s (.byte (s.devByte s.target off.toNat))) ∧
    (∃ t, exec (.devWrD off v) s = .next t ∧ StoresByte s t s.target off.toNat v) ∧
    (d.kind = .rom → ∃ t, exec (.romWrD off v) s = .next t ∧ StoresByte s t s.target off.toNat v)

/-- A plain byte: a normal read answers the backing byte, a normal write stores it and nothing else
(41_device.md R202, R203). -/
def Obligations.PlainBytes : Prop :=
  ∀ (s : State) (off : Word) (v : Byte) (d : Device), s.BusOpen → s.Inv →
    s.devs[s.target]? = some d → off.toNat < d.range.size →
    (d.kind = .ram ∨ d.kind = .videoRam ∨ (d.kind = .sys ∧ off.toNat ≠ 0) ∨
      (d.kind = .gpu ∧ (off.toNat ∈ [0x05, 0x08, 0x0B, 0x14, 0x15, 0x16, 0x17] ∨ 0x1D ≤ off.toNat))) →
    exec (.devRd off) s = .next (Answered s (.byte (s.devByte s.target off.toNat))) ∧
    (∃ t, exec (.devWr off v) s = .next t ∧ StoresByte s t s.target off.toNat v)

/-- ROM: a normal write changes nothing and a normal read answers the backing byte (41_device.md R207).
OTHER: a normal read answers a fresh free value, whatever it is, and changes nothing but the draw counter
(the model's own field, log 15); a normal write does nothing (R211). -/
def Obligations.RomAndOtherDevices : Prop :=
  ∀ (s : State) (off : Word) (v : Byte) (d : Device), s.BusOpen →
    s.devs[s.target]? = some d → off.toNat < d.range.size →
    (d.kind = .rom → exec (.romWr off v) s = .next s ∧
      exec (.devRd off) s = .next (Answered s (.byte (s.devByte s.target off.toNat)))) ∧
    (d.kind = .other → exec (.devWr off v) s = .next s ∧
      exec (.devRd off) s =
        .next { s with resp := s.resp ++ [.byte (Config.otherByte s.draws)], draws := s.draws + 1 })

/-- SYS_SPEED: a normal write keeps the low four bits and discards the rest; a read answers the byte
(40_bus.md R183, R184; 10_state.md R78). -/
def Obligations.SpeedRegister : Prop :=
  ∀ (s : State) (v : Byte), s.PortOpen .sys → s.Inv →
    (∃ t, exec (.wrSysSpeed v) s = .next t ∧ StoresByte s t s.target 0x00 (v &&& 0x0F)) ∧
    exec .rdSysSpeed s = .next (Answered s (.byte (s.devByte s.target 0x00)))

/-! ## GPU registers -/

/-- Every GPU register without a read handler answers its backing byte and changes nothing
(42_gpu_registers.md R232, R234, R236, R237, R238, R242, R244; 45_blit.md R341, R342, R347;
46_command.md R366, R372). -/
def Obligations.RegisterReads : Prop :=
  ∀ (s : State) (i : Instr) (off : Nat), s.PortOpen .gpu →
    (i, off) ∈ [(Instr.rdGpuMode, 0x00), (.rdGpuRes, 0x01), (.rdGpuOptions, 0x02),
      (.rdGpuVidtopMsb, 0x03), (.rdGpuVidtopLsb, 0x04), (.rdGpuPalIndex, 0x05), (.rdGpuEpalIndex, 0x08),
      (.rdGpuGlyphIndex, 0x0B), (.rdGpuBlitAddrMsb, 0x14), (.rdGpuBlitAddrLsb, 0x15),
      (.rdGpuBlitPitchMsb, 0x16), (.rdGpuBlitPitchLsb, 0x17), (.rdGpuBlitWidthMsb, 0x18),
      (.rdGpuBlitWidthLsb, 0x19), (.rdGpuCmd, 0x1B), (.rdGpuError, 0x1C)] →
    exec i s = .next (Answered s (.byte (s.devByte s.target off)))

/-- Every GPU register without a write handler stores the byte and changes nothing else
(42_gpu_registers.md R238, R242, R244; 45_blit.md R341, R342); a normal write of the read-only registers,
GPU_VIDTOP and GPU_ERROR, changes nothing (42_gpu_registers.md R247, 46_command.md R369). -/
def Obligations.RegisterWrites : Prop :=
  ∀ (s : State) (v : Byte), s.PortOpen .gpu → s.Inv →
    (∀ (i : Instr) (off : Nat),
      (i, off) ∈ [(Instr.wrGpuPalIndex v, 0x05), (.wrGpuEpalIndex v, 0x08), (.wrGpuGlyphIndex v, 0x0B),
        (.wrGpuBlitAddrMsb v, 0x14), (.wrGpuBlitAddrLsb v, 0x15), (.wrGpuBlitPitchMsb v, 0x16),
        (.wrGpuBlitPitchLsb v, 0x17)] →
      ∃ t, exec i s = .next t ∧ StoresByte s t s.target off v) ∧
    exec (.wrGpuVidtopMsb v) s = .next s ∧ exec (.wrGpuVidtopLsb v) s = .next s ∧
    exec (.wrGpuError v) s = .next s

/-- Where an operation at a device's port stops, by name (the model's choice, log 17): a generic row at a byte
that its device does not have, or a generic, register or command row at no device, finds no such byte; a register
or command row at a device of another kind, a generic row at a byte with a handler, a ROM row at another device, and
a command row whose opcode spells the other one, whatever device is there, are encodings of another row (30_encoding.md R125, R128; 41_device.md R203). -/
def Obligations.PortStops : Prop :=
  ∀ (s : State) (off : Word) (v op : Byte) (i : Instr), s.BusOpen →
    (i ∈ [Instr.devRd off, .devWr off v, .devRdD off, .devWrD off v, .romWr off v, .romWrD off v] →
      (∀ d, s.devs[s.target]? = some d → d.range.size ≤ off.toNat) → exec i s = .fault .noSuchByte) ∧
    (s.devs[s.target]? = none →
      (i.rowKind = .gpuRegister ∨ i.rowKind = .sysRegister → exec i s = .fault .noSuchByte) ∧
      (s.commandEntry op ≠ none → exec (.cmdKnown op) s = .fault .noSuchByte) ∧
      (s.commandEntry op = none → exec (.cmdUnknown op) s = .fault .noSuchByte)) ∧
    (∀ d, s.devs[s.target]? = some d →
      (i.rowKind = .gpuRegister → d.kind ≠ .gpu → exec i s = .refused .otherRow) ∧
      (i.rowKind = .sysRegister → d.kind ≠ .sys → exec i s = .refused .otherRow) ∧
      (d.kind ≠ .gpu → (s.commandEntry op ≠ none → exec (.cmdKnown op) s = .refused .otherRow) ∧
        (s.commandEntry op = none → exec (.cmdUnknown op) s = .refused .otherRow))) ∧
    (∀ d, s.devs[s.target]? = some d → off.toNat < d.range.size →
      (d.kind = .gpu → off.toNat ∈ [0x06, 0x07, 0x09, 0x0A, 0x0C, 0x0D, 0x0E, 0x0F, 0x10, 0x11, 0x12, 0x13,
        0x1A] → exec (.devRd off) s = .refused .otherRow ∧ exec (.devWr off v) s = .refused .otherRow) ∧
      (d.kind = .gpu → off.toNat ∈ [0x00, 0x01, 0x02, 0x03, 0x04, 0x18, 0x19, 0x1B, 0x1C] →
        exec (.devWr off v) s = .refused .otherRow) ∧
      (d.kind = .sys → off = 0 → exec (.devWr off v) s = .refused .otherRow) ∧
      (d.kind = .rom → exec (.devWr off v) s = .refused .otherRow) ∧
      (d.kind ≠ .rom → exec (.romWr off v) s = .refused .otherRow ∧
        exec (.romWrD off v) s = .refused .otherRow)) ∧
    (s.commandEntry op = none → exec (.cmdKnown op) s = .refused .otherRow) ∧
    (s.commandEntry op ≠ none → exec (.cmdUnknown op) s = .refused .otherRow)

/-- A normal write of GPU_MODE or GPU_RES marks the environment dirty and runs one decode pass, on the byte
written, the other register's current byte and VIDEO_BASE, which is the base of the VIDEO_RAM device: an accepted pass commits all its results together, a
rejected one restores both registers, an overrun records code 11 as well, and nothing else changes
(42_gpu_registers.md R231, R233; 43_gpu_decode.md R287, R288, R289; 10_state.md R51, R52; 00_scope.md R7). -/
def Obligations.ModeAndResolutionWrites : Prop :=
  ∀ (s : State) (v : Byte), s.PortOpen .gpu → s.Inv →
    (∀ e, s.OneVideoRam e → s.videoBase = e.range.base) ∧
    (∃ t, exec (.wrGpuMode v) s = .next t ∧ t.envDirty = true ∧ OutsideKept s t ∧
      PassOutcome s t s.target (decodePass s.cfg s.videoBase (s.devByte s.target 0x02) v
        (s.devByte s.target 0x01))) ∧
    (∃ t, exec (.wrGpuRes v) s = .next t ∧ t.envDirty = true ∧ OutsideKept s t ∧
      PassOutcome s t s.target (decodePass s.cfg s.videoBase (s.devByte s.target 0x02)
        (s.devByte s.target 0x00) v))

/-- A normal write of GPU_OPTIONS stores the byte, marks the environment dirty and recomputes the window of
the row in use from it, and nothing else (42_gpu_registers.md R235; 43_gpu_decode.md R284). -/
def Obligations.OptionsWrite : Prop :=
  ∀ (s : State) (v : Byte), s.PortOpen .gpu → s.Inv →
    ∃ t, exec (.wrGpuOptions v) s = .next t ∧ t.envDirty = true ∧ OutsideKept s t ∧
      t.devByte s.target 0x02 = v ∧ BytesKept s t (fun j off => j = s.target ∧ off = 0x02) ∧
      ∃ (row : DmtRow) (args : WindowArgs), row = entry s.cfg.dmt s.gpu.dec.row ∧
        args.timingIndex = row.timingIndex ∧ args.pixelWidth = row.pixelWidth ∧
        args.pixelHeight = row.pixelHeight ∧ args.resWidth = row.resWidth ∧
        args.resHeight = row.resHeight ∧ args.aspect = v.extractLsb' 4 2 ∧
        args.pixmul = v.extractLsb' 0 4 ∧ args.vsync = v.getLsbD 6 ∧ args.fullscreen = v.getLsbD 7 ∧
        t.gpu = { s.gpu with dec := { s.gpu.dec with window := Config.windowSize args } }

/-- The palette data registers read the halves of the selected entries and change nothing; a write commits
its byte at once to its half of the selected entry, and the other half, every other entry and everything
else stay, the index and the dirty flag included (42_gpu_registers.md R239 to R241, R243, R248, R249). -/
def Obligations.PaletteRegisters : Prop :=
  ∀ (s : State) (v : Byte), s.PortOpen .gpu →
    let ip := s.devByte s.target 0x05
    let ie := s.devByte s.target 0x08
    let e := entry s.gpu.palette ip
    let x := entry s.gpu.epalette ie
    exec .rdGpuPalDataMsb s = .next (Answered s (.byte (e.extractLsb' 8 8))) ∧
    exec .rdGpuPalDataLsb s = .next (Answered s (.byte (e.extractLsb' 0 8))) ∧
    exec .rdGpuEpalDataMsb s = .next (Answered s (.byte (x.extractLsb' 8 8))) ∧
    exec .rdGpuEpalDataLsb s = .next (Answered s (.byte (x.extractLsb' 0 8))) ∧
    (∃ t, exec (.wrGpuPalDataMsb v) s = .next t ∧
      (∀ j, entry t.gpu.palette j =
        if j = ip then v ++ (entry s.gpu.palette j).extractLsb' 0 8 else entry s.gpu.palette j) ∧
      { t with gpu := { t.gpu with palette := s.gpu.palette } } = s) ∧
    (∃ t, exec (.wrGpuPalDataLsb v) s = .next t ∧
      (∀ j, entry t.gpu.palette j =
        if j = ip then (entry s.gpu.palette j).extractLsb' 8 8 ++ v else entry s.gpu.palette j) ∧
      { t with gpu := { t.gpu with palette := s.gpu.palette } } = s) ∧
    (∃ t, exec (.wrGpuEpalDataMsb v) s = .next t ∧
      (∀ j, entry t.gpu.epalette j =
        if j = ie then v ++ (entry s.gpu.epalette j).extractLsb' 0 8 else entry s.gpu.epalette j) ∧
      { t with gpu := { t.gpu with epalette := s.gpu.epalette } } = s) ∧
    (∃ t, exec (.wrGpuEpalDataLsb v) s = .next t ∧
      (∀ j, entry t.gpu.epalette j =
        if j = ie then (entry s.gpu.epalette j).extractLsb' 8 8 ++ v else entry s.gpu.epalette j) ∧
      { t with gpu := { t.gpu with epalette := s.gpu.epalette } } = s)

/-- Palette round trip on the bus: writing an index and then the 16-bit colour, and reading it back the same
way, answers that colour, for a GPU at any base (30_encoding.md R136; 42_gpu_registers.md R238 to R241). -/
def Obligations.PaletteRoundTrip : Prop :=
  ∀ (s : State) (j : Byte) (w base : Word) (i : Nat) (d : Device), s.BusOpen → s.Inv →
    s.Maps base i d → d.kind = .gpu → d.range.base = base.toNat →
    ∃ t, run ((Pseudo.setPal j w).expand base ++ (Pseudo.getPal j).expand base) s = .next t ∧
      t.resp = s.resp ++ [.word w] ∧ entry t.gpu.palette j = w ∧
      ∀ k, k ≠ j → entry t.gpu.palette k = entry s.gpu.palette k

/-- The glyph row registers read and write row r of the selected glyph, every other row of every glyph and
everything else as before (42_gpu_registers.md R245, R246). -/
def Obligations.GlyphRows : Prop :=
  ∀ (s : State) (v : Byte) (r : Fin 8) (rd wr : Instr), s.PortOpen .gpu →
    (r, rd, wr) ∈ [((0 : Fin 8), Instr.rdGpuGlyphRow0, Instr.wrGpuGlyphRow0 v),
      (1, .rdGpuGlyphRow1, .wrGpuGlyphRow1 v), (2, .rdGpuGlyphRow2, .wrGpuGlyphRow2 v),
      (3, .rdGpuGlyphRow3, .wrGpuGlyphRow3 v), (4, .rdGpuGlyphRow4, .wrGpuGlyphRow4 v),
      (5, .rdGpuGlyphRow5, .wrGpuGlyphRow5 v), (6, .rdGpuGlyphRow6, .wrGpuGlyphRow6 v),
      (7, .rdGpuGlyphRow7, .wrGpuGlyphRow7 v)] →
    let g := s.devByte s.target 0x0B
    exec rd s = .next (Answered s (.byte (entry s.gpu.glyph g)[r])) ∧
    (∃ t, exec wr s = .next t ∧
      (∀ (h : Byte) (q : Fin 8), (entry t.gpu.glyph h)[q] =
        if h = g ∧ q = r then v else (entry s.gpu.glyph h)[q]) ∧
      { t with gpu := { t.gpu with glyph := s.gpu.glyph } } = s)

/-! ## The decode pass -/

/-- When a pass rejects silently, and when it overruns: the row's flags are checked first and only for an
enabled standard plane; a plane overruns when it does not fit at one bit per pixel, or its text cells do
not fit (43_gpu_decode.md R282, R283, R291; 60_exceptions.md R409). -/
def Obligations.PassVerdict : Prop :=
  ∀ (p : Params) (base : Nat) (opt mode res : Byte) (row : DmtRow), row = entry p.dmt res →
    (decodePass p base opt mode res = .reject ↔
      mode.getLsbD 3 = true ∧ (if mode.getLsbD 2 then row.stdBitmapValid else row.textValid) = false) ∧
    (decodePass p base opt mode res = .overrun ↔
      ¬(mode.getLsbD 3 = true ∧
        (if mode.getLsbD 2 then row.stdBitmapValid else row.textValid) = false) ∧
      ((mode.getLsbD 3 = true ∧ mode.getLsbD 2 = true ∧ p.stdCap < row.resWidth * row.resHeight / 8) ∨
       (mode.getLsbD 3 = true ∧ mode.getLsbD 2 = false ∧
         p.stdCap < row.resWidth / 8 * (row.resHeight / 8) * 2) ∨
       (mode.getLsbD 7 = true ∧ p.extCap < row.resWidth * row.resHeight / 8)))

/-- What an accepted pass applies: the enables and the row as requested, the reserved bit 0, each enabled
bitmap plane at its depth halved until it fits, every other depth code as requested, and the top of the
video buffer and the decoded state from these, its window that of the row and GPU_OPTIONS (43_gpu_decode.md
R281, R283 to R286; 10_state.md R46, R59). -/
def Obligations.AcceptedPass : Prop :=
  ∀ (p : Params) (base : Nat) (opt mode res : Byte) (r : Applied) (row : DmtRow),
    row = entry p.dmt res → decodePass p base opt mode res = .accept r →
    let area8 := row.resWidth * row.resHeight / 8
    let sb := 2 ^ (r.mode.extractLsb' 0 2).toNat
    let eb := 2 ^ (r.mode.extractLsb' 5 2).toNat
    r.res = res ∧ r.mode.getLsbD 4 = false ∧ r.mode.getLsbD 7 = mode.getLsbD 7 ∧
    r.mode.getLsbD 3 = mode.getLsbD 3 ∧ r.mode.getLsbD 2 = mode.getLsbD 2 ∧
    (if mode.getLsbD 7 then HalvedToFit (2 ^ (mode.extractLsb' 5 2).toNat) area8 p.extCap eb
     else r.mode.extractLsb' 5 2 = mode.extractLsb' 5 2) ∧
    (if mode.getLsbD 3 && mode.getLsbD 2
     then HalvedToFit (2 ^ (mode.extractLsb' 0 2).toNat) area8 p.stdCap sb
     else r.mode.extractLsb' 0 2 = mode.extractLsb' 0 2) ∧
    (r.top.toNat : Int) = ((base : Int) + (if mode.getLsbD 3 then
      (if mode.getLsbD 2 then area8 * sb else row.resWidth / 8 * (row.resHeight / 8) * 2) else 0) - 1) %
        65536 ∧
    r.dec.row = res ∧ r.dec.width = row.resWidth ∧ r.dec.height = row.resHeight ∧
    r.dec.stdEn = mode.getLsbD 3 ∧ r.dec.stdBitmap = mode.getLsbD 2 ∧ r.dec.stdBpp = sb ∧
    r.dec.extEn = mode.getLsbD 7 ∧ r.dec.extBpp = eb ∧
    ∃ args : WindowArgs, args.timingIndex = row.timingIndex ∧ args.pixelWidth = row.pixelWidth ∧
      args.pixelHeight = row.pixelHeight ∧ args.resWidth = row.resWidth ∧ args.resHeight = row.resHeight ∧
      args.aspect = opt.extractLsb' 4 2 ∧ args.pixmul = opt.extractLsb' 0 4 ∧ args.vsync = opt.getLsbD 6 ∧
      args.fullscreen = opt.getLsbD 7 ∧ r.dec.window = Config.windowSize args

/-- The applied mode is a fixpoint of the pass: decoding it again accepts and commits the very same results
(43_gpu_decode.md R290). -/
def Obligations.AppliedModeIsFixpoint : Prop :=
  ∀ (p : Params) (base : Nat) (opt mode res : Byte) (r : Applied),
    decodePass p base opt mode res = .accept r → decodePass p base opt r.mode r.res = .accept r

/-! ## The blit port -/

/-- A normal write of a byte of GPU_BLIT_WIDTH stores it and sets the hidden counter to the full new width,
and changes nothing else (45_blit.md R343). -/
def Obligations.WidthWrites : Prop :=
  ∀ (s : State) (v : Byte), s.PortOpen .gpu → s.Inv →
    (∃ t, exec (.wrGpuBlitWidthMsb v) s = .next t ∧ t.devByte s.target 0x18 = v ∧
      t.gpu = { s.gpu with widthCounter := v ++ s.devByte s.target 0x19 } ∧
      BytesKept s t (fun j off => j = s.target ∧ off = 0x18) ∧ SameDevices s t ∧
      { t with devs := s.devs, gpu := s.gpu } = s) ∧
    (∃ t, exec (.wrGpuBlitWidthLsb v) s = .next t ∧ t.devByte s.target 0x19 = v ∧
      t.gpu = { s.gpu with widthCounter := s.devByte s.target 0x18 ++ v } ∧
      BytesKept s t (fun j off => j = s.target ∧ off = 0x19) ∧ SameDevices s t ∧
      { t with devs := s.devs, gpu := s.gpu } = s)

/-- A normal read of GPU_BLIT_DATA answers the byte of secondary memory at the port's address and advances
the port; a normal write stores the byte there, no other one, and advances the port
(45_blit.md R344, R345, R346). -/
def Obligations.BlitDataAccess : Prop :=
  ∀ (s : State) (v : Byte), s.PortOpen .gpu → s.Inv →
    let a := (be16 (s.devByte s.target 0x14) (s.devByte s.target 0x15)).toNat
    (∃ t, exec .rdGpuBlitData s = .next t ∧ t.resp = s.resp ++ [.byte (s.gpu.ext.read a)] ∧
      PortAdvanced s t s.target ∧
      { t with devs := s.devs, resp := s.resp,
               gpu := { t.gpu with widthCounter := s.gpu.widthCounter } } = s) ∧
    (∃ t, exec (.wrGpuBlitData v) s = .next t ∧
      (∀ x, t.gpu.ext.read x = if x = a then v else s.gpu.ext.read x) ∧
      PortAdvanced s t s.target ∧
      { t with devs := s.devs,
               gpu := { t.gpu with widthCounter := s.gpu.widthCounter, ext := s.gpu.ext } } = s)

/-- Sequencing: with width W at least 1, pitch P at least W and a fresh counter, any 2W data-port accesses
complete, access r*W + k goes to a0 + r*P + k, and they leave the port at a0 + 2P with counter W
(45_blit.md R350). -/
def Obligations.BlitSequencing : Prop :=
  ∀ (s : State) (w : Nat) (accesses : List Instr), s.PortOpen .gpu → s.Inv →
    (s.blitWidth s.target).toNat = w → 1 ≤ w → w ≤ (s.blitPitch s.target).toNat →
    s.gpu.widthCounter = s.blitWidth s.target →
    (∀ i ∈ accesses, IsPortAccess i) → accesses.length = 2 * w →
    (∀ r k, r < 2 → k < w → ∃ t, run (accesses.take (r * w + k)) s = .next t ∧
      (t.blitAddr s.target).toNat =
        ((s.blitAddr s.target).toNat + r * (s.blitPitch s.target).toNat + k) % 65536) ∧
    (∃ t, run accesses s = .next t ∧
      (t.blitAddr s.target).toNat =
        ((s.blitAddr s.target).toNat + 2 * (s.blitPitch s.target).toNat) % 65536 ∧
      t.gpu.widthCounter.toNat = w)

/-! ## The command coprocessor and the error register -/

/-- An opcode that is no key of the command table sets GPU_ERROR to 1 and clears GPU_CMD, and changes nothing
else, as the register write and as the coprocessor's own row (46_command.md R362). -/
def Obligations.UnknownCommand : Prop :=
  ∀ (s : State) (op : Byte), s.PortOpen .gpu → s.Inv → (∀ e ∈ s.cfg.commandTable, e.opcode ≠ op) →
    ∃ t, exec (.wrGpuCmd op) s = .next t ∧ exec (.cmdUnknown op) s = .next t ∧
      t.devByte s.target 0x1C = 1 ∧ t.devByte s.target 0x1B = 0x00 ∧
      OnlyBytes s t (fun j off => j = s.target ∧ (off = 0x1B ∨ off = 0x1C))

/-- An opcode of the command table completes, as the register write and as the coprocessor's own row: it is
the dispatch of the table's entry with the handlers of the implementation (46_command.md R361, R363). -/
def Obligations.KnownCommand : Prop :=
  ∀ (s : State) (op : Byte) (e : CommandEntry), s.PortOpen .gpu → s.commandEntry op = some e →
    ∃ t, exec (.wrGpuCmd op) s = .next t ∧ exec (.cmdKnown op) s = .next t ∧
      t = s.dispatchWith s.target Config.handler op

/-- A handler is shown `gpu.ext`, both palettes, the glyph table, `gpu.dec`, the width counter and the GPU's backing
bytes; one that succeeds, whatever it is, commits its change of secondary memory, the palettes, the
glyphs, the blit registers and the counter; GPU_ERROR is left, GPU_CMD cleared, and nothing else changes
(46_command.md R363, R367). That the new secondary memory is put into the canonical form, its cells outside
65536 bytes dropped, is the model's choice (log 14). -/
def Obligations.HandlerSuccess : Prop :=
  ∀ (s : State) (i : Nat) (d : Device) (handlers : Nat → HandlerView → HandlerResult) (op : Byte)
    (e : CommandEntry) (w : HandlerWrites), s.Inv → s.devs[i]? = some d → d.kind = .gpu →
    s.commandEntry op = some e →
    handlers e.handler
      { ext := s.gpu.ext
        palette := s.gpu.palette
        epalette := s.gpu.epalette
        glyph := s.gpu.glyph
        dec := s.gpu.dec
        widthCounter := s.gpu.widthCounter
        backing := d.backing } = .success w →
    ∃ t, t = s.dispatchWith i handlers op ∧
      t.gpu = { s.gpu with ext := Memory.ofCells 65536 w.ext, palette := w.palette,
                           epalette := w.epalette, glyph := w.glyph, widthCounter := w.widthCounter } ∧
      t.blitAddr i = w.blitAddr ∧ t.blitPitch i = w.blitPitch ∧ t.blitWidth i = w.blitWidth ∧
      t.devByte i 0x1B = 0x00 ∧
      BytesKept s t (fun j off => j = i ∧ ((0x14 ≤ off ∧ off ≤ 0x19) ∨ off = 0x1B)) ∧
      SameDevices s t ∧ { t with devs := s.devs, gpu := s.gpu } = s

/-- A handler, shown the GPU's state as R367 lists it, that fails with a code, whatever it is, changes nothing but GPU_ERROR, which holds the code's
number, 2 to 11 in the order of R370, and GPU_CMD, which is cleared (46_command.md R364, R367, R370). -/
def Obligations.HandlerFailure : Prop :=
  ∀ (s : State) (i : Nat) (d : Device) (handlers : Nat → HandlerView → HandlerResult) (op : Byte)
    (e : CommandEntry) (c : HandlerError), s.Inv → s.devs[i]? = some d → d.kind = .gpu →
    s.commandEntry op = some e →
    handlers e.handler
      { ext := s.gpu.ext
        palette := s.gpu.palette
        epalette := s.gpu.epalette
        glyph := s.gpu.glyph
        dec := s.gpu.dec
        widthCounter := s.gpu.widthCounter
        backing := d.backing } = .failure c →
    ∃ t, t = s.dispatchWith i handlers op ∧
      t.devByte i 0x1C = (match c with
        | .invalidAddress => 2 | .invalidHandle => 3 | .invalidWidth => 4 | .invalidHeight => 5
        | .invalidPitch => 6 | .invalidData => 7 | .invalidOffset => 8 | .invalidArgument => 9
        | .outOfMemory => 10 | .bufferOverrun => 11) ∧
      t.devByte i 0x1B = 0x00 ∧
      OnlyBytes s t (fun j off => j = i ∧ (off = 0x1B ∨ off = 0x1C))

/-- GPU_CMD reads 0x00 after every normal write, known or unknown (46_command.md R365). -/
def Obligations.CommandRegisterClears : Prop :=
  ∀ (s : State) (op : Byte), s.PortOpen .gpu → s.Inv →
    ∃ t, exec (.wrGpuCmd op) s = .next t ∧ t.PortOpen .gpu ∧
      exec .rdGpuCmd t = .next (Answered t (.byte 0x00))

/-- The error register is sticky: no operation but INIT, a debug write and LOAD clears it
(46_command.md R371, R373; 60_exceptions.md R403). -/
def Obligations.ErrorIsSticky : Prop :=
  ∀ (i : Instr) (s t : State) (j : Nat) (d : Device), s.Inv → IsNormal i = true → i ≠ .init →
    exec i s = .next t → s.devs[j]? = some d → d.kind = .gpu → s.devByte j 0x1C ≠ 0 →
    t.devByte j 0x1C ≠ 0

/-! ## Attach and the lifecycle -/

/-- ATTACH appends a device of the given or reported size at the first free address, its backing the draw or,
for the GPU and SYS, zeroes, and changes nothing else; a RAM, ROM or OTHER device reports its entry's size, so
with the size 0 its range is empty (40_bus.md R161; 41_device.md R205). At a first free address of 65536 the
base of such a range is 65536, the model's reading of R161 against 10_state.md R33 (log 22). -/
def Obligations.AttachAppends : Prop :=
  ∀ (s : State) (size : BitVec 17) (sz : Nat), s.fault = none → s.phase = .construct →
    sz = (if size.toNat = 0 then (match s.beside.dev with
      | .videoRam => s.cfg.stdCap | .gpu => 32 | .sys => 16 | _ => 0)
      else size.toNat) →
    (s.beside.dev = .gpu → 32 ≤ sz) → (s.beside.dev = .sys → 16 ≤ sz) →
    s.nextFree + sz ≤ 65536 →
    ∃ (t : State) (d : Device), exec (.attach size) s = .next t ∧ t.devs = s.devs ++ [d] ∧
      d.kind = s.beside.dev ∧ d.range = { base := s.nextFree, size := sz } ∧
      t.nextFree = s.nextFree + sz ∧
      (∀ off, d.backing.read off = if d.kind = .gpu ∨ d.kind = .sys then 0x00
        else (Memory.ofCells sz (s.cfg.ramInit.getD s.devs.length [])).read off) ∧
      { t with devs := s.devs, nextFree := s.nextFree } = s

/-- An attach whose top address would exceed 64K faults fatally: no range is appended, and no step follows
(40_bus.md R162). -/
def Obligations.AttachOverflows : Prop :=
  ∀ (s : State) (size : BitVec 17), s.fault = none → s.phase = .construct →
    65536 < s.nextFree + s.attachSize size →
    ∃ t, exec (.attach size) s = .next t ∧ t = { s with fault := some .attachOverflow } ∧
      t.ranges = s.ranges ∧ ∀ i u, exec i t ≠ .next u

/-- A configuration that breaks R8 is refused: an undersized GPU or SYS entry that fits, at its ATTACH, and, at INIT,
exactly what breaks (a) to (d): a number of GPU, VIDEO_RAM or SYS devices other than one, a VIDEO_RAM of another
size than STD_CAP or an EXT_CAP above 65536, a reset pair that the pass does not accept, a DisplayMode row with a
dimension outside 1 to 65535 (10_state.md R44); and speed levels that are not in ascending speed, a budget above level 0's 40000 or above
an earlier one's (40_bus.md R186). Where the refusal happens is the model's choice (log 5), and so is that such
budgets are refused (log 21). -/
def Obligations.BrokenConfigurationRefused : Prop :=
  ∀ (s : State) (size : BitVec 17), s.fault = none → s.phase = .construct →
    (s.nextFree + size.toNat ≤ 65536 →
      (s.beside.dev = .gpu ∧ size.toNat ≠ 0 ∧ size.toNat < 32) ∨
        (s.beside.dev = .sys ∧ size.toNat ≠ 0 ∧ size.toNat < 16) →
      exec (.attach size) s = .refused .configuration) ∧
    (exec .init s = .refused .configuration ↔
      (∃ k ∈ [DeviceKind.gpu, .videoRam, .sys], s.devs.countP (fun d => d.kind == k) ≠ 1) ∨
      (∃ d ∈ s.devs, d.kind = .videoRam ∧ d.range.size ≠ s.cfg.stdCap) ∨ 65536 < s.cfg.extCap ∨
      (∀ r, decodePass s.cfg s.videoBase 0x00 s.cfg.resetMode s.cfg.resetRes ≠ .accept r) ∨
      (∃ (j : Byte) (n : Nat), n ∈ [(entry s.cfg.dmt j).resWidth, (entry s.cfg.dmt j).resHeight,
        (entry s.cfg.dmt j).pixelWidth, (entry s.cfg.dmt j).pixelHeight] ∧ (n < 1 ∨ 65535 < n)) ∨
      (∃ j : Fin 14, 40000 < s.cfg.speedBudgets[j]) ∨ (∃ j k : Fin 14, j < k ∧ s.cfg.speedBudgets[j] < s.cfg.speedBudgets[k]))

/-- INIT on a configuration that holds: the tables, the cleared registers, one accepted pass for the reset
mode and row with the base of the VIDEO_RAM device, phase READY, and nothing else (44_gpu_render.md R330;
70_reset_and_hazards.md R443, R444; 10_state.md R51; 00_scope.md R7). -/
def Obligations.InitBoots : Prop :=
  ∀ (s : State) (i : Nat) (d : Device), s.Inv → s.fault = none → s.phase = .construct →
    s.configured = true → s.devs[i]? = some d → d.kind = .gpu →
    ∃ (t : State) (r : Applied), exec .init s = .next t ∧
      decodePass s.cfg s.videoBase 0x00 s.cfg.resetMode s.cfg.resetRes = .accept r ∧
      (∀ e ∈ s.devs, e.kind = .videoRam → s.videoBase = e.range.base) ∧
      t.phase = .ready ∧ t.envDirty = s.envDirty ∧
      t.gpu = { s.gpu with palette := s.cfg.defaultPalette, epalette := s.cfg.defaultPalette,
                           glyph := s.cfg.defaultFont, accMode := r.mode, accRes := r.res, dec := r.dec,
                           widthCounter := 0 } ∧
      t.devByte i 0x00 = r.mode ∧ t.devByte i 0x01 = s.cfg.resetRes ∧
      t.devByte i 0x03 = hi8 r.top ∧ t.devByte i 0x04 = lo8 r.top ∧
      (∀ off ∈ [0x02, 0x05, 0x08, 0x0B, 0x14, 0x15, 0x16, 0x17, 0x18, 0x19, 0x1B, 0x1C],
        t.devByte i off = 0x00) ∧
      BytesKept s t (fun j off => j = i ∧ (off ≤ 0x05 ∨ off = 0x08 ∨ off = 0x0B ∨
        (0x14 ≤ off ∧ off ≤ 0x19) ∨ off = 0x1B ∨ off = 0x1C)) ∧
      SameDevices s t ∧ { t with devs := s.devs, gpu := s.gpu, phase := s.phase } = s

/-- ACTIVATE: where the host creates every surface, the boot one enters the run phase and a later one changes
nothing; where it does not, the GPU raises SURFACE_FAILURE and the phase stays
(40_bus.md R173; 44_gpu_render.md R332; 60_exceptions.md R401). -/
def Obligations.Activate : Prop :=
  ∀ (s : State), s.BusOpen →
    (s.SurfacesCreated →
      exec .activate s =
        .next (if s.phase = .ready then { s with phase := .run, running := true } else s)) ∧
    (¬ s.SurfacesCreated →
      (∃ d ∈ s.devs, d.kind = .gpu) →
      exec .activate s = .next { s with fault := some .surfaceFailure })

/-- UPDATE: nothing changes where the environment is clean; where it is dirty, one rebuild clears the flag, or
a failing host raises SURFACE_FAILURE with the flag still set (40_bus.md R172; 60_exceptions.md R409). -/
def Obligations.UpdateDirtyGate : Prop :=
  ∀ (s : State) (dt : BitVec 17), s.LoopOpen →
    (s.envDirty = false → exec (.update dt) s = .next s) ∧
    (s.envDirty = true → s.SurfacesCreated →
      exec (.update dt) s = .next { s with envDirty := false }) ∧
    (s.envDirty = true → ¬ s.SurfacesCreated →
      (∃ d ∈ s.devs, d.kind = .gpu) →
      exec (.update dt) s = .next { s with fault := some .surfaceFailure })

/-- TICK performs the CPU step's transactions in order, each as the bus does it, and then records the achieved
interval (40_bus.md R175; 10_state.md R77). -/
def Obligations.TickRunsTheCpuStep : Prop :=
  ∀ (s : State), s.LoopOpen →
    ∃ u, run (s.beside.cpu.map CpuTransaction.instr) s = .next u ∧
      exec .tick s = .next { u with achievedInterval := s.beside.interval }

/-- DEACTIVATE and EVENT complete and change no modelled state; SHUTDOWN clears the running flag; QUIT, where
it is clear, ends the run in phase DONE, in which no operation is admitted (40_bus.md R174, R177, R178,
R180; 44_gpu_render.md R333, R337; 70_reset_and_hazards.md R448). -/
def Obligations.DeactivateEventShutdownQuit : Prop :=
  ∀ (s : State), (s.BusOpen → exec .deactivate s = .next s) ∧ (s.LoopOpen → exec .event s = .next s) ∧
    (s.fault = none → s.phase = .run → exec .shutdown s = .next { s with running := false }) ∧
    (s.BusOpen → s.running = false → exec .quit s = .next { s with phase := .done } ∧
      ∀ i u, exec i { s with phase := .done } ≠ .next u)

/-! ## The loader -/

/-- LOAD completes on every text and changes nothing but backing bytes: no flag, no decode, no palette
(47_boot_image.md R381, R386). -/
def Obligations.LoadChangesOnlyBytes : Prop :=
  ∀ (s : State), s.fault = none → s.phase = .ready →
    ∃ t, exec .load s = .next t ∧ OnlyBytes s t (fun _ _ => True)

/-- LOAD of a text whose first line that is not skipped is a data record of N bytes at A, whatever its checksum,
is the debug writes of those bytes in order at A, A + 1, … modulo 65536, followed by LOAD of the text after that
line, so every data record is applied and later bytes win; a text without one, of lines that are malformed or of a
type 0x02 to 0xFF, with an end-of-file record and whatever follows it or without one, writes nothing. Every text is
of one of the two forms. Where no more data record follows and every address is mapped, exactly the N bytes are
written and no other address is touched. A line ends at LF, a CR before it is dropped, and the last line needs no
line end (47_boot_image.md R381 to R389). That a last line without LF keeps a CR is the model's choice (log 19). -/
def Obligations.LoadWritesTheRecord : Prop :=
  (∀ (text : List Byte), WritesNothing text ∨ ∃ a data rest, BeginsWithRecord text a data rest) ∧
  ∀ (s : State), s.fault = none → s.phase = .ready →
    (WritesNothing s.beside.text → exec .load s = .next s) ∧
    ∀ (a : Word) (data rest : List Byte), BeginsWithRecord s.beside.text a data rest →
      (∃ t u, run (data.zipIdx.map fun d => .wrD (a + BitVec.ofNat 16 d.2) d.1) s = .next t ∧
        exec .load { t with beside := { t.beside with text := rest } } = .next u ∧
        exec .load s = .next { u with beside := s.beside }) ∧
      (s.Inv → WritesNothing rest → (∀ k, k < data.length → ¬ s.Unmapped (a + BitVec.ofNat 16 k)) →
        ∃ t, exec .load s = .next t ∧
          (∀ k (h : k < data.length), (busRead (a + BitVec.ofNat 16 k) true t).1 = data[k]) ∧
          (∀ b : Word, (∀ k, k < data.length → b ≠ a + BitVec.ofNat 16 k) →
            (busRead b true t).1 = (busRead b true s).1))

/-! ## The render -/

/-- RENDER composes a frame of the decoded resolution and changes nothing else. Each pixel is the clear
colour, or the extended plane forced opaque, with the standard plane's bitmap or text cell blended over
it; the standard plane's bytes are those of the VIDEO_RAM device and the extended plane's those of `gpu.ext`, each
0x00 from its capacity on (44_gpu_render.md R311 to R314, R316 to R318, R320, R335). -/
def Obligations.RenderComposes : Prop :=
  ∀ (s : State) (x y : Nat), s.LoopOpen → (∃ d ∈ s.devs, d.kind = .gpu) →
    x < s.gpu.dec.width → y < s.gpu.dec.height →
    (∀ e k, s.OneVideoRam e → s.stdByte k = if k < s.cfg.stdCap then e.backing.read k else 0x00) ∧
    (s.cfg.extCap ≤ 65536 → ∀ k, s.extByte k = if k < s.cfg.extCap then s.gpu.ext.read k else 0x00) ∧
    ∃ (t : State) (under : Word), exec .render s = .next t ∧ { t with frame := s.frame } = s ∧
      t.frame.width = s.gpu.dec.width ∧ t.frame.height = s.gpu.dec.height ∧
      t.frame.pixels.length = s.gpu.dec.width * s.gpu.dec.height ∧
      under = (if s.gpu.dec.extEn then
          0xF#4 ++ (entry s.gpu.epalette (BitVec.ofNat 8 (unpack s.extByte s.gpu.dec.extBpp
            (y * s.gpu.dec.width + x)))).extractLsb' 0 12
        else 0xF000) ∧
      t.frame.pixelAt x y = some (
        if s.gpu.dec.stdEn = false then under
        else if s.gpu.dec.stdBitmap then
          blend under (entry s.gpu.palette (BitVec.ofNat 8 (unpack s.stdByte s.gpu.dec.stdBpp
            (y * s.gpu.dec.width + x))))
        else if x < 8 * (s.gpu.dec.width / 8) ∧ y < 8 * (s.gpu.dec.height / 8) then
          let cell := y / 8 * (s.gpu.dec.width / 8) + x / 8
          let rows := entry s.gpu.glyph (s.stdByte (2 * cell))
          let attr := s.stdByte (2 * cell + 1)
          let colour := if (rows.toList.getD (y % 8) 0).getLsbD (7 - x % 8) then attr.toNat / 16
            else attr.toNat % 16
          blend under (entry s.gpu.palette (BitVec.ofNat 8 colour))
        else under)

/-- The blend on each field is the formula on naturals, which always fits in four bits; alpha 15 gives the
source and alpha 0 the destination (44_gpu_render.md R319). -/
def Obligations.BlendFormula : Prop :=
  ∀ (dst src : Word),
    let a := src.toNat / 4096
    let channel := fun (k : Nat) =>
      (dst.toNat / 2 ^ k % 16 * (16 - a) + src.toNat / 2 ^ k % 16 * (a + 1)) / 16
    (blend dst src).toNat = channel 12 * 4096 + channel 8 * 256 + channel 4 * 16 + channel 0 ∧
    channel 12 ≤ 15 ∧ channel 8 ≤ 15 ∧ channel 4 ≤ 15 ∧ channel 0 ≤ 15 ∧
    (a = 15 → blend dst src = src) ∧ (a = 0 → blend dst src = dst)

/-- Where a pixel lies at each depth: bit 7 - (p mod 8) of byte p / 8, the two-bit field j = p mod 4 of byte
p / 4, the nibble of byte p / 2, the byte p (44_gpu_render.md R315). -/
def Obligations.PixelFields : Prop :=
  ∀ (fetch : Nat → Byte) (p : Nat),
    unpack fetch 1 p = ((fetch (p / 8)).getLsbD (7 - p % 8)).toNat ∧
    unpack fetch 2 p = ((fetch (p / 4)).extractLsb' (6 - 2 * (p % 4)) 2).toNat ∧
    unpack fetch 4 p = (if p % 2 = 0 then ((fetch (p / 2)).extractLsb' 4 4).toNat
      else ((fetch (p / 2)).extractLsb' 0 4).toNat) ∧
    unpack fetch 8 p = (fetch p).toNat

/-- Packing indices and unpacking them gives them back, at every depth, for every frame whose number of
pixels is a multiple of 8 and from a buffer of exactly its bytes (44_gpu_render.md R322). -/
def Obligations.PackUnpackRoundTrip : Prop :=
  ∀ (bpp w h p : Nat) (idx : Nat → Nat) (buffer : List Byte), LegalBpp bpp → 8 ∣ w * h → p < w * h →
    (∀ q, q < w * h → idx q < 2 ^ bpp) →
    buffer = (List.range (w * h / 8 * bpp)).map (packByte idx bpp) →
    unpack (fun k => buffer.getD k 0) bpp p = idx p

/-! ## The whole machine -/

/-- There are exactly two fatal causes: of all the operations there are, an ATTACH beyond 64K, which appends no range,
and an ACTIVATE or a dirty UPDATE whose host creation fails, and no others; no bus transaction raises one. So for
every step of the block, the first and the later atomic steps of split operations among them: what sets `fault` is
an ATTACH, or an ACTIVATE or an UPDATE whose host creation fails (60_exceptions.md R402). -/
def Obligations.FatalCauses : Prop :=
  (∀ (i : Instr) (s t : State), exec i s = .next t →
    (t.fault = some .attachOverflow ↔ ∃ size, i = .attach size ∧ 65536 < s.nextFree + s.attachSize size) ∧
    (t.fault = some .surfaceFailure ↔
      (i = .activate ∨ (s.envDirty = true ∧ ∃ dt, i = .update dt)) ∧ ¬ s.SurfacesCreated ∧
        ∃ d ∈ s.devs, d.kind = .gpu) ∧
    (t.fault = some .attachOverflow → t.ranges = s.ranges)) ∧
  (∀ (s t : State) (r : FatalReason), s.InboxInv → step s = .next t → t.fault = some r →
    s.fault = none ∧ ∃ i, s.NextIs i ∧
      ((r = .attachOverflow ∧ t.ranges = s.ranges ∧
          ∃ size, i = .attach size ∧ 65536 < s.nextFree + t.attachSize size) ∨
        (r = .surfaceFailure ∧ (i = .activate ∨ ∃ dt, i = .update dt) ∧ ¬ t.SurfacesCreated ∧
          ∃ d ∈ s.devs, d.kind = .gpu)))

/-- An operation has a step only in the states its row of the admission table lists, split or not, and a faulted
state admits no step: neither an operation nor the machine's own step (70_reset_and_hazards.md R447;
60_exceptions.md R401). An operation in progress goes on only in those states too, a LOAD only in phase READY and a
QUIT only with the running flag clear, but that TICK, UPDATE, EVENT and RENDER are finished after a SHUTDOWN
(40_bus.md R180). -/
def Obligations.Admission : Prop :=
  (∀ (i : Instr) (s t : State), exec i s = .next t → s.Admits i) ∧
  (∀ (s t : State) (r : Request) (rest : List Entry) (i : Instr), s.inbox = .request r :: rest →
    s.decodeRequest r = .ok i → s.Free i → step s = .next t → s.Admits i) ∧
  (∀ (s t : State) (o : Ongoing) (rest : List Entry), s.inbox = .resume o :: rest → step s = .next t →
    s.GoesOn o.op) ∧
  (∀ (s : State) (r : FatalReason), s.fault = some r →
    (∀ i t, exec i s ≠ .next t) ∧ (∀ t, step s ≠ .next t))

/-- The lifecycle only goes forward: no operation, and no step of the block, the first and the later atomic steps
of split operations among them, leads back to an earlier phase; only INIT leaves CONSTRUCT, only the boot ACTIVATE
enters the run phase and sets the running flag, only SHUTDOWN clears it, and only QUIT, with the flag clear, ends
the run (70_reset_and_hazards.md R446 to R449). -/
def Obligations.LifecycleGoesForward : Prop :=
  (∀ (i : Instr) (s t : State), exec i s = .next t → GoesForward i s t) ∧
  (∀ (s t : State), s.InboxInv → step s = .next t → ∃ i, s.NextIs i ∧ GoesForward i s t)

/-- Every step keeps the operations in progress in order: each is what is left of an operation that began after
construction, and no agent has two of them, so that no TICK falls inside another, no RENDER inside an UPDATE, and
the loader has ended before the run phase begins (20_memory.md R100, R102; 60_exceptions.md R422; which operations
are one agent's is the model's choice, log 23). -/
def Obligations.StepKeepsAgentsInOrder : Prop :=
  ∀ (s t : State), s.InboxInv → step s = .next t → t.InboxInv

/-- `gpu.acc` and `gpu.dec` are written by the decode pass alone, but for the host window in `gpu.dec`, which a
GPU_OPTIONS write recomputes: an operation that is neither INIT nor a write of GPU_MODE or GPU_RES, whose normal
byte writes (WR's, both of WRW's, those of TICK's transactions) all miss every GPU's bytes 0x00 and 0x01, leaves
them but for the window, and the window too where it is no GPU_OPTIONS write and misses byte 0x02. No debug
transaction changes any of it (10_state.md R45, R46; 41_device.md R204; 42_gpu_registers.md R235;
46_command.md R367). -/
def Obligations.DecodeStateHasOneWriter : Prop :=
  ∀ (i : Instr) (s t : State), exec i s = .next t →
    (match i with
     | .init | .wrGpuMode _ | .wrGpuRes _ => False
     | _ => True) →
    (∀ a ∈ s.written i, ¬ s.AtGpuByte a 0x00 ∧ ¬ s.AtGpuByte a 0x01) →
    DecodeKeptButWindow s t ∧
    ((∀ v, i ≠ .wrGpuOptions v) → (∀ a ∈ s.written i, ¬ s.AtGpuByte a 0x02) → DecodeKept s t)

/-- Every step keeps the parameters and tables, which are static, the DisplayMode table and the command table among
them; and it keeps the bus layout and the canonical form of every memory: the ranges contiguous in attach order from
0 up to the first free address, at most 65536, and every backing inside its range; and no step moves, resizes or
removes an attached device (10_state.md R33, R35, R44, R50; the canonical form is the model's, log 6). -/
def Obligations.StepKeepsLayout : Prop :=
  (∀ (s t : State), step s = .next t → t.cfg = s.cfg) ∧
  (∀ (s t : State), s.Inv → step s = .next t →
    t.Inv ∧ ∀ (i : Nat) (d : Device), s.devs[i]? = some d →
      ∃ e, t.devs[i]? = some e ∧ e.kind = d.kind ∧ e.range = d.range)

/-- Every step keeps the display legal after Init: the decoded state is that of the last accepted pair, the
row allows the standard plane's mode, and every enabled plane fits its buffer; an illegal combination is
never committed (43_gpu_decode.md R282, R283, R287, R291; 10_state.md R45, R46). -/
def Obligations.StepKeepsDisplayLegal : Prop :=
  ∀ (s t : State), s.DisplayInv → step s = .next t → t.DisplayInv

/-- The machine after reset is at construction, as the spec states it: no device, nothing free taken, the
flags clear, no fault, and gpu.ext the draw of the parameters (70_reset_and_hazards.md R441); and the
invariants hold there. -/
def Obligations.ResetIsConstruction : Prop :=
  State.reset.devs = [] ∧ State.reset.ranges = [] ∧ State.reset.nextFree = 0 ∧
  State.reset.phase = .construct ∧ State.reset.envDirty = false ∧ State.reset.running = false ∧
  State.reset.fault = none ∧ State.reset.gpu.widthCounter = 0 ∧ State.reset.gpu.accMode = 0x00 ∧
  State.reset.gpu.accRes = 0x00 ∧
  State.reset.gpu.ext = Memory.ofCells 65536 State.reset.cfg.extInit ∧
  State.reset.Inv ∧ State.reset.DisplayInv ∧ State.reset.InboxInv

end
end

