-- ==== Sys2Proof/Laws/Decode.lean ====
section
/-! SUPPORT. The fields of an encoded word, and a word from its fields (30_encoding.md R122, R126). -/

namespace Sys2Proof

theorem toNat_append_add {m n : Nat} (x : BitVec m) (y : BitVec n) :
    (x ++ y).toNat = x.toNat * 2 ^ n + y.toNat := by
  rw [BitVec.toNat_append, ← Nat.shiftLeft_add_eq_or_of_lt y.isLt, Nat.shiftLeft_eq]

theorem toNat_field {n : Nat} (w : TxWord) (k : Nat) :
    (w.extractLsb' k n).toNat = w.toNat / 2 ^ k % 2 ^ n := by
  rw [BitVec.extractLsb'_toNat, Nat.shiftRight_eq_div_pow]

/-- The value of a BUS or DEV word. -/
theorem busWord_toNat (cls : BitVec 4) (dbg : Bool) (addr data : Word) :
    (busWord cls dbg addr data).toNat =
      cls.toNat * 2 ^ 36 + dbg.toNat * 2 ^ 35 + addr.toNat * 2 ^ 16 + data.toNat := by
  show (cls ++ BitVec.ofBool dbg ++ 0#3 ++ addr ++ data).toNat = _
  simp only [toNat_append_add, BitVec.toNat_ofNat, BitVec.toNat_ofBool]
  omega

/-- The value of a HOST word. -/
theorem hostWord_toNat (hop : BitVec 8) (arg : BitVec 17) :
    (hostWord hop arg).toNat = 8 * 2 ^ 36 + hop.toNat * 2 ^ 24 + arg.toNat := by
  show (8#4 ++ 0#4 ++ hop ++ 0#7 ++ arg).toNat = _
  simp only [toNat_append_add, BitVec.toNat_ofNat]
  omega

section fields

variable (cls : BitVec 4) (dbg : Bool) (addr data : Word) (hop : BitVec 8) (arg : BitVec 17)

@[simp] theorem fieldCls_busWord : fieldCls (busWord cls dbg addr data) = cls := by
  apply BitVec.eq_of_toNat_eq
  rw [fieldCls, toNat_field, busWord_toNat]
  have := cls.isLt; have := addr.isLt; have := data.isLt; have := Bool.toNat_le dbg
  omega

@[simp] theorem fieldDbg_busWord : fieldDbg (busWord cls dbg addr data) = dbg := by
  rw [fieldDbg, BitVec.getLsbD, busWord_toNat, Nat.testBit_eq_decide_div_mod_eq]
  have := cls.isLt; have := addr.isLt; have := data.isLt
  cases dbg <;> simp only [Bool.toNat_false, Bool.toNat_true, decide_eq_false_iff_not,
    decide_eq_true_eq] <;> omega

@[simp] theorem fieldRsv_busWord : fieldRsv (busWord cls dbg addr data) = 0 := by
  apply BitVec.eq_of_toNat_eq
  rw [fieldRsv, toNat_field, busWord_toNat]
  have := addr.isLt; have := data.isLt
  show _ = 0
  omega

@[simp] theorem fieldAddr_busWord : fieldAddr (busWord cls dbg addr data) = addr := by
  apply BitVec.eq_of_toNat_eq
  rw [fieldAddr, toNat_field, busWord_toNat]
  have := addr.isLt; have := data.isLt
  omega

@[simp] theorem fieldData_busWord : fieldData (busWord cls dbg addr data) = data := by
  apply BitVec.eq_of_toNat_eq
  rw [fieldData, toNat_field, busWord_toNat]
  have := data.isLt
  omega

@[simp] theorem fieldCls_hostWord : fieldCls (hostWord hop arg) = 8 := by
  apply BitVec.eq_of_toNat_eq
  rw [fieldCls, toNat_field, hostWord_toNat]
  have := hop.isLt; have := arg.isLt
  show _ = 8
  omega

@[simp] theorem fieldHostRsv_hostWord : fieldHostRsv (hostWord hop arg) = 0 := by
  apply BitVec.eq_of_toNat_eq
  rw [fieldHostRsv, toNat_field, hostWord_toNat]
  have := hop.isLt; have := arg.isLt
  show _ = 0
  omega

@[simp] theorem fieldHop_hostWord : fieldHop (hostWord hop arg) = hop := by
  apply BitVec.eq_of_toNat_eq
  rw [fieldHop, toNat_field, hostWord_toNat]
  have := hop.isLt; have := arg.isLt
  omega

@[simp] theorem fieldRsv2_hostWord : fieldRsv2 (hostWord hop arg) = 0 := by
  apply BitVec.eq_of_toNat_eq
  rw [fieldRsv2, toNat_field, hostWord_toNat]
  have := hop.isLt; have := arg.isLt
  show _ = 0
  omega

@[simp] theorem fieldArg_hostWord : fieldArg (hostWord hop arg) = arg := by
  apply BitVec.eq_of_toNat_eq
  rw [fieldArg, toNat_field, hostWord_toNat]
  have := arg.isLt
  omega

end fields

@[simp] theorem dataLow_dataByte (v : Byte) : dataLow (dataByte v) = v := by
  apply BitVec.eq_of_toNat_eq
  show ((0#8 ++ v : BitVec 16).extractLsb' 0 8).toNat = _
  rw [BitVec.extractLsb'_toNat, toNat_append_add]
  have := v.isLt
  simp; omega

@[simp] theorem dataHigh_dataByte (v : Byte) : dataHigh (dataByte v) = 0 := by
  apply BitVec.eq_of_toNat_eq
  show ((0#8 ++ v : BitVec 16).extractLsb' 8 8).toNat = _
  rw [BitVec.extractLsb'_toNat, toNat_append_add, Nat.shiftRight_eq_div_pow]
  have := v.isLt
  simp; omega

/-- A data field whose high byte is zero is its low byte. -/
theorem dataByte_dataLow {d : Word} (h : dataHigh d = 0) : dataByte (dataLow d) = d := by
  have h' := congrArg BitVec.toNat h
  rw [dataHigh, BitVec.extractLsb'_toNat, Nat.shiftRight_eq_div_pow] at h'
  apply BitVec.eq_of_toNat_eq
  show (0#8 ++ dataLow d).toNat = _
  rw [toNat_append_add, dataLow, BitVec.extractLsb'_toNat, Nat.shiftRight_eq_div_pow]
  have := d.isLt
  simp at h' ⊢; omega

/-- A word with a zero RSV is the BUS word of its fields. -/
theorem busWord_of_fields {w : TxWord} (h : fieldRsv w = 0) :
    busWord (fieldCls w) (fieldDbg w) (fieldAddr w) (fieldData w) = w := by
  have h' := congrArg BitVec.toNat h
  rw [fieldRsv, toNat_field] at h'
  apply BitVec.eq_of_toNat_eq
  rw [busWord_toNat, fieldCls, fieldAddr, fieldData, toNat_field, toNat_field, toNat_field]
  have hd : (fieldDbg w).toNat = w.toNat / 2 ^ 35 % 2 := by
    rw [fieldDbg, BitVec.getLsbD, Nat.testBit_eq_decide_div_mod_eq]
    rcases Nat.mod_two_eq_zero_or_one (w.toNat / 2 ^ 35) with e | e <;> rw [e] <;> rfl
  rw [hd]
  have := w.isLt
  change _ = 0 at h'
  omega

/-- A word with CLS 8 and zero reserved fields is the HOST word of its fields. -/
theorem hostWord_of_fields {w : TxWord} (hc : fieldCls w = 8) (h : fieldHostRsv w = 0)
    (h2 : fieldRsv2 w = 0) : hostWord (fieldHop w) (fieldArg w) = w := by
  have hc' := congrArg BitVec.toNat hc
  have h' := congrArg BitVec.toNat h
  have h2' := congrArg BitVec.toNat h2
  rw [fieldCls, toNat_field] at hc'
  rw [fieldHostRsv, toNat_field] at h'
  rw [fieldRsv2, toNat_field] at h2'
  apply BitVec.eq_of_toNat_eq
  rw [hostWord_toNat, fieldHop, fieldArg, toNat_field, toNat_field]
  have := w.isLt
  change _ = 8 at hc'
  change _ = 0 at h'
  change _ = 0 at h2'
  omega

end Sys2Proof
end

