-- ==== Sys2Proof/Laws/Memory.lean ====
section
/-! SUPPORT. The laws of byte memory: a read after a write, the canonical form kept, and equal reads
meaning equal memories. -/

namespace Sys2Proof.Machine

theorem Memory.read_nil (a : Nat) : Memory.read [] a = unlistedByte := rfl

/-- An address below every listed one is unlisted. -/
theorem Memory.read_of_all_lt (m : Memory) (a : Nat) (h : m.all (fun c => decide (a < c.1)) = true) :
    m.read a = unlistedByte := by
  induction m with
  | nil => rfl
  | cons c rest ih =>
    obtain ⟨b, w⟩ := c
    simp only [List.all_cons, Bool.and_eq_true, decide_eq_true_eq] at h
    have hne : a ≠ b := by omega
    simp [Memory.read, hne, ih h.2]

theorem Memory.wf_cons (b : Nat) (w : Byte) (rest : Memory) :
    Memory.wf ((b, w) :: rest) = true ↔
      w ≠ unlistedByte ∧ (rest.all (fun c => decide (b < c.1)) = true) ∧ Memory.wf rest = true := by
  simp [Memory.wf, and_assoc]

theorem Memory.all_lt_mono {m : Memory} {a b : Nat} (hab : a ≤ b)
    (h : m.all (fun c => decide (b < c.1)) = true) : m.all (fun c => decide (a < c.1)) = true := by
  rw [List.all_eq_true] at h ⊢
  intro c hc
  have := h c hc
  simp only [decide_eq_true_eq] at this ⊢
  omega

theorem Memory.all_lt_write {m : Memory} {a b : Nat} {v : Byte} (hba : b < a)
    (h : m.all (fun c => decide (b < c.1)) = true) :
    (m.write a v).all (fun c => decide (b < c.1)) = true := by
  induction m with
  | nil => by_cases hv : v = unlistedByte <;> simp [Memory.write, hv, hba]
  | cons c rest ih =>
    obtain ⟨x, w⟩ := c
    rw [List.all_cons, Bool.and_eq_true, decide_eq_true_eq] at h
    have cons (y : Nat) (u : Byte) (l : Memory) (hy : b < y)
        (hl : l.all (fun c => decide (b < c.1)) = true) :
        ((y, u) :: l).all (fun c => decide (b < c.1)) = true := by
      rw [List.all_cons, hl, decide_eq_true hy]; rfl
    simp only [Memory.write]
    split_ifs
    · exact cons _ _ _ h.1 h.2
    · exact cons _ _ _ hba (cons _ _ _ h.1 h.2)
    · exact h.2
    · exact cons _ _ _ hba h.2
    · exact cons _ _ _ h.1 (ih h.2)

/-- A write keeps the canonical form. -/
theorem Memory.wf_write (m : Memory) (a : Nat) (v : Byte) (h : m.wf = true) :
    (m.write a v).wf = true := by
  induction m with
  | nil => by_cases hv : v = unlistedByte <;> simp [Memory.write, Memory.wf, hv]
  | cons c rest ih =>
    obtain ⟨b, w⟩ := c
    obtain ⟨hw, hall, hrest⟩ := (Memory.wf_cons b w rest).mp h
    simp only [Memory.write]
    split_ifs with h1 h2 h3 h4
    · exact h
    · rw [Memory.wf_cons]
      refine ⟨h2, ?_, h⟩
      simp only [List.all_cons, Bool.and_eq_true, decide_eq_true_eq]
      exact ⟨h1, Memory.all_lt_mono (by omega) hall⟩
    · exact hrest
    · rw [Memory.wf_cons]; subst h3; exact ⟨h4, hall, hrest⟩
    · rw [Memory.wf_cons]; exact ⟨hw, Memory.all_lt_write (by omega) hall, ih hrest⟩

/-- A read after a write: the byte written at its address, the old byte elsewhere. -/
theorem Memory.read_write (m : Memory) (a b : Nat) (v : Byte) (h : m.wf = true) :
    (m.write a v).read b = if b = a then v else m.read b := by
  induction m with
  | nil =>
    by_cases hv : v = unlistedByte <;> by_cases hb : b = a <;> simp [Memory.write, Memory.read, hv, hb]
  | cons c rest ih =>
    obtain ⟨x, w⟩ := c
    obtain ⟨hw, hall, hrest⟩ := (Memory.wf_cons x w rest).mp h
    simp only [Memory.write]
    split_ifs with h1 h2 h3 h3 h4 h5 h6
    · subst h3
      have hx : b ≠ x := by omega
      simp [Memory.read, hx, h2, Memory.read_of_all_lt rest b (Memory.all_lt_mono (by omega) hall)]
    · rfl
    · simp [Memory.read, h3]
    · simp [Memory.read, h3]
    · rw [h6, h4, h5]
      exact Memory.read_of_all_lt rest x hall
    · have hx : b ≠ x := by omega
      simp [Memory.read, hx]
    · simp [Memory.read, *]
    · have hx : b ≠ x := by omega
      simp [Memory.read, *]
    · have hx : b ≠ x := by omega
      subst b
      simp [Memory.read, hx, ih hrest]
    · simp only [Memory.read]
      split_ifs
      · rfl
      · simp_all

/-- A write leaves the reads of every other address, of any list of cells. -/
theorem Memory.read_write_ne (m : Memory) (a b : Nat) (v : Byte) (hb : b ≠ a) :
    (m.write a v).read b = m.read b := by
  induction m with
  | nil => by_cases hv : v = unlistedByte <;> simp [Memory.write, Memory.read, hv, hb]
  | cons c rest ih =>
    obtain ⟨x, w⟩ := c
    simp only [Memory.write]
    split_ifs with h1 h2 h3 h4
    · rfl
    · rw [Memory.read, if_neg hb]
    · rw [Memory.read, if_neg (by omega)]
    · rw [Memory.read, if_neg hb, Memory.read, if_neg (by omega)]
    · rw [Memory.read, Memory.read, ih]

/-- A read of the address just written, of a canonical memory. -/
theorem Memory.read_write_self (m : Memory) (a : Nat) (v : Byte) (h : m.wf = true) :
    (m.write a v).read a = v := by simp [Memory.read_write m a a v h]

theorem Memory.below_write (m : Memory) (a bound : Nat) (v : Byte) (ha : a < bound)
    (h : m.below bound = true) : (m.write a v).below bound = true := by
  induction m with
  | nil => by_cases hv : v = unlistedByte <;> simp [Memory.write, Memory.below, hv, ha]
  | cons c rest ih =>
    obtain ⟨b, w⟩ := c
    rw [Memory.below, List.all_cons, Bool.and_eq_true, decide_eq_true_eq] at h
    have cons (y : Nat) (u : Byte) (l : Memory) (hy : y < bound) (hl : l.below bound = true) :
        Memory.below ((y, u) :: l) bound = true := by
      rw [Memory.below] at hl
      rw [Memory.below, List.all_cons, hl, decide_eq_true hy]; rfl
    simp only [Memory.write]
    split_ifs
    · exact cons _ _ _ h.1 h.2
    · exact cons _ _ _ ha (cons _ _ _ h.1 h.2)
    · exact h.2
    · exact cons _ _ _ ha h.2
    · exact cons _ _ _ h.1 (ih h.2)

/-- An address at or past a bound on the listed ones is unlisted. -/
theorem Memory.read_of_below (m : Memory) (a bound : Nat) (h : m.below bound = true) (ha : bound ≤ a) :
    m.read a = unlistedByte := by
  induction m with
  | nil => rfl
  | cons c rest ih =>
    obtain ⟨b, w⟩ := c
    simp only [Memory.below, List.all_cons, Bool.and_eq_true, decide_eq_true_eq] at h ih
    have hne : a ≠ b := by omega
    simp [Memory.read, hne, ih h.2]

theorem Memory.ofCells_foldl (size : Nat) (cells : List Host.Cell) (m : Memory)
    (hw : m.wf = true) (hb : m.below size = true) :
    let r := cells.foldl (fun m c => if c.1 < size then m.write c.1 c.2 else m) m
    r.wf = true ∧ r.below size = true := by
  induction cells generalizing m with
  | nil => exact ⟨hw, hb⟩
  | cons c rest ih =>
    simp only [List.foldl_cons]
    split_ifs with hc
    · exact ih _ (Memory.wf_write m c.1 c.2 hw) (Memory.below_write m c.1 size c.2 hc hb)
    · exact ih _ hw hb

/-- The memory of a list of cells is canonical. -/
theorem Memory.wf_ofCells (size : Nat) (cells : List Host.Cell) :
    (Memory.ofCells size cells).wf = true :=
  (Memory.ofCells_foldl size cells [] rfl rfl).1

/-- The memory of a list of cells is inside its size. -/
theorem Memory.below_ofCells (size : Nat) (cells : List Host.Cell) :
    (Memory.ofCells size cells).below size = true :=
  (Memory.ofCells_foldl size cells [] rfl rfl).2

theorem Memory.read_head_ne {b : Nat} {w : Byte} {rest : Memory} (h : Memory.wf ((b, w) :: rest) = true) :
    Memory.read ((b, w) :: rest) b ≠ unlistedByte := by
  simpa [Memory.read] using ((Memory.wf_cons b w rest).mp h).1

/-- Canonical memories with equal reads are equal data. -/
theorem Memory.ext_read (m n : Memory) (hm : m.wf = true) (hn : n.wf = true)
    (h : ∀ a, m.read a = n.read a) : m = n := by
  induction m generalizing n with
  | nil =>
    cases n with
    | nil => rfl
    | cons c rest => exact absurd (h c.1).symm (Memory.read_head_ne hn)
  | cons c rest ih =>
    obtain ⟨b, w⟩ := c
    obtain ⟨hw, hall, hrest⟩ := (Memory.wf_cons b w rest).mp hm
    cases n with
    | nil => exact absurd (h b) (Memory.read_head_ne hm)
    | cons c' rest' =>
      obtain ⟨b', w'⟩ := c'
      obtain ⟨hw', hall', hrest'⟩ := (Memory.wf_cons b' w' rest').mp hn
      have hb : b = b' := by
        rcases Nat.lt_trichotomy b b' with hlt | heq | hgt
        · have := h b
          rw [Memory.read_of_all_lt ((b', w') :: rest') b (by
            simp only [List.all_cons, Bool.and_eq_true, decide_eq_true_eq]
            exact ⟨hlt, Memory.all_lt_mono (by omega) hall'⟩)] at this
          exact absurd this (Memory.read_head_ne hm)
        · exact heq
        · have := h b'
          rw [Memory.read_of_all_lt ((b, w) :: rest) b' (by
            simp only [List.all_cons, Bool.and_eq_true, decide_eq_true_eq]
            exact ⟨hgt, Memory.all_lt_mono (by omega) hall⟩)] at this
          exact absurd this.symm (Memory.read_head_ne hn)
      subst hb
      have hww : w = w' := by simpa [Memory.read] using h b
      subst hww
      congr 1
      refine ih rest' hrest hrest' fun a => ?_
      by_cases hab : a = b
      · subst hab
        rw [Memory.read_of_all_lt rest a hall, Memory.read_of_all_lt rest' a hall']
      · simpa [Memory.read, hab] using h a

end Sys2Proof.Machine
end

