-- ==== Sys2Proof/Laws/State.lean ====
section
/-! SUPPORT. One lemma per field per update of `State`, true by unfolding the update once, so that no
later proof unfolds a record update. -/

namespace Sys2Proof.Machine

/-! ## `s.setDevByte i off v` -/

@[simp] theorem State.setDevByte_cfg (s : State) (i off : Nat) (v : Byte) :
    (s.setDevByte i off v).cfg = s.cfg := rfl
@[simp] theorem State.setDevByte_nextFree (s : State) (i off : Nat) (v : Byte) :
    (s.setDevByte i off v).nextFree = s.nextFree := rfl
@[simp] theorem State.setDevByte_devs (s : State) (i off : Nat) (v : Byte) :
    (s.setDevByte i off v).devs = s.devs.modify i (fun d => d.setByte off v) := rfl
@[simp] theorem State.setDevByte_gpu (s : State) (i off : Nat) (v : Byte) :
    (s.setDevByte i off v).gpu = s.gpu := rfl
@[simp] theorem State.setDevByte_envDirty (s : State) (i off : Nat) (v : Byte) :
    (s.setDevByte i off v).envDirty = s.envDirty := rfl
@[simp] theorem State.setDevByte_running (s : State) (i off : Nat) (v : Byte) :
    (s.setDevByte i off v).running = s.running := rfl
@[simp] theorem State.setDevByte_phase (s : State) (i off : Nat) (v : Byte) :
    (s.setDevByte i off v).phase = s.phase := rfl
@[simp] theorem State.setDevByte_fault (s : State) (i off : Nat) (v : Byte) :
    (s.setDevByte i off v).fault = s.fault := rfl
@[simp] theorem State.setDevByte_frame (s : State) (i off : Nat) (v : Byte) :
    (s.setDevByte i off v).frame = s.frame := rfl
@[simp] theorem State.setDevByte_achievedInterval (s : State) (i off : Nat) (v : Byte) :
    (s.setDevByte i off v).achievedInterval = s.achievedInterval := rfl
@[simp] theorem State.setDevByte_inbox (s : State) (i off : Nat) (v : Byte) :
    (s.setDevByte i off v).inbox = s.inbox := rfl
@[simp] theorem State.setDevByte_beside (s : State) (i off : Nat) (v : Byte) :
    (s.setDevByte i off v).beside = s.beside := rfl
@[simp] theorem State.setDevByte_target (s : State) (i off : Nat) (v : Byte) :
    (s.setDevByte i off v).target = s.target := rfl
@[simp] theorem State.setDevByte_resp (s : State) (i off : Nat) (v : Byte) :
    (s.setDevByte i off v).resp = s.resp := rfl
@[simp] theorem State.setDevByte_draws (s : State) (i off : Nat) (v : Byte) :
    (s.setDevByte i off v).draws = s.draws := rfl

/-! ## `s.setDevWord i off w` -/

@[simp] theorem State.setDevWord_cfg (s : State) (i off : Nat) (w : Word) :
    (s.setDevWord i off w).cfg = s.cfg := rfl
@[simp] theorem State.setDevWord_nextFree (s : State) (i off : Nat) (w : Word) :
    (s.setDevWord i off w).nextFree = s.nextFree := rfl
@[simp] theorem State.setDevWord_devs (s : State) (i off : Nat) (w : Word) :
    (s.setDevWord i off w).devs = ((s.setDevByte i off (hi8 w)).setDevByte i (off + 1) (lo8 w)).devs := rfl
@[simp] theorem State.setDevWord_gpu (s : State) (i off : Nat) (w : Word) :
    (s.setDevWord i off w).gpu = s.gpu := rfl
@[simp] theorem State.setDevWord_envDirty (s : State) (i off : Nat) (w : Word) :
    (s.setDevWord i off w).envDirty = s.envDirty := rfl
@[simp] theorem State.setDevWord_running (s : State) (i off : Nat) (w : Word) :
    (s.setDevWord i off w).running = s.running := rfl
@[simp] theorem State.setDevWord_phase (s : State) (i off : Nat) (w : Word) :
    (s.setDevWord i off w).phase = s.phase := rfl
@[simp] theorem State.setDevWord_fault (s : State) (i off : Nat) (w : Word) :
    (s.setDevWord i off w).fault = s.fault := rfl
@[simp] theorem State.setDevWord_frame (s : State) (i off : Nat) (w : Word) :
    (s.setDevWord i off w).frame = s.frame := rfl
@[simp] theorem State.setDevWord_achievedInterval (s : State) (i off : Nat) (w : Word) :
    (s.setDevWord i off w).achievedInterval = s.achievedInterval := rfl
@[simp] theorem State.setDevWord_inbox (s : State) (i off : Nat) (w : Word) :
    (s.setDevWord i off w).inbox = s.inbox := rfl
@[simp] theorem State.setDevWord_beside (s : State) (i off : Nat) (w : Word) :
    (s.setDevWord i off w).beside = s.beside := rfl
@[simp] theorem State.setDevWord_target (s : State) (i off : Nat) (w : Word) :
    (s.setDevWord i off w).target = s.target := rfl
@[simp] theorem State.setDevWord_resp (s : State) (i off : Nat) (w : Word) :
    (s.setDevWord i off w).resp = s.resp := rfl
@[simp] theorem State.setDevWord_draws (s : State) (i off : Nat) (w : Word) :
    (s.setDevWord i off w).draws = s.draws := rfl

/-! ## `s.setError i c` -/

@[simp] theorem State.setError_cfg (s : State) (i : Nat) (c : ErrorCode) :
    (s.setError i c).cfg = s.cfg := rfl
@[simp] theorem State.setError_nextFree (s : State) (i : Nat) (c : ErrorCode) :
    (s.setError i c).nextFree = s.nextFree := rfl
@[simp] theorem State.setError_devs (s : State) (i : Nat) (c : ErrorCode) :
    (s.setError i c).devs = (s.setDevByte i regError (errorCode c)).devs := rfl
@[simp] theorem State.setError_gpu (s : State) (i : Nat) (c : ErrorCode) :
    (s.setError i c).gpu = s.gpu := rfl
@[simp] theorem State.setError_envDirty (s : State) (i : Nat) (c : ErrorCode) :
    (s.setError i c).envDirty = s.envDirty := rfl
@[simp] theorem State.setError_running (s : State) (i : Nat) (c : ErrorCode) :
    (s.setError i c).running = s.running := rfl
@[simp] theorem State.setError_phase (s : State) (i : Nat) (c : ErrorCode) :
    (s.setError i c).phase = s.phase := rfl
@[simp] theorem State.setError_fault (s : State) (i : Nat) (c : ErrorCode) :
    (s.setError i c).fault = s.fault := rfl
@[simp] theorem State.setError_frame (s : State) (i : Nat) (c : ErrorCode) :
    (s.setError i c).frame = s.frame := rfl
@[simp] theorem State.setError_achievedInterval (s : State) (i : Nat) (c : ErrorCode) :
    (s.setError i c).achievedInterval = s.achievedInterval := rfl
@[simp] theorem State.setError_inbox (s : State) (i : Nat) (c : ErrorCode) :
    (s.setError i c).inbox = s.inbox := rfl
@[simp] theorem State.setError_beside (s : State) (i : Nat) (c : ErrorCode) :
    (s.setError i c).beside = s.beside := rfl
@[simp] theorem State.setError_target (s : State) (i : Nat) (c : ErrorCode) :
    (s.setError i c).target = s.target := rfl
@[simp] theorem State.setError_resp (s : State) (i : Nat) (c : ErrorCode) :
    (s.setError i c).resp = s.resp := rfl
@[simp] theorem State.setError_draws (s : State) (i : Nat) (c : ErrorCode) :
    (s.setError i c).draws = s.draws := rfl

/-! ## `s.extWrite a v` -/

@[simp] theorem State.extWrite_cfg (s : State) (a : Nat) (v : Byte) :
    (s.extWrite a v).cfg = s.cfg := rfl
@[simp] theorem State.extWrite_nextFree (s : State) (a : Nat) (v : Byte) :
    (s.extWrite a v).nextFree = s.nextFree := rfl
@[simp] theorem State.extWrite_devs (s : State) (a : Nat) (v : Byte) :
    (s.extWrite a v).devs = s.devs := rfl
@[simp] theorem State.extWrite_gpu (s : State) (a : Nat) (v : Byte) :
    (s.extWrite a v).gpu = { s.gpu with ext := s.gpu.ext.write (a % extMemSize) v } := rfl
@[simp] theorem State.extWrite_envDirty (s : State) (a : Nat) (v : Byte) :
    (s.extWrite a v).envDirty = s.envDirty := rfl
@[simp] theorem State.extWrite_running (s : State) (a : Nat) (v : Byte) :
    (s.extWrite a v).running = s.running := rfl
@[simp] theorem State.extWrite_phase (s : State) (a : Nat) (v : Byte) :
    (s.extWrite a v).phase = s.phase := rfl
@[simp] theorem State.extWrite_fault (s : State) (a : Nat) (v : Byte) :
    (s.extWrite a v).fault = s.fault := rfl
@[simp] theorem State.extWrite_frame (s : State) (a : Nat) (v : Byte) :
    (s.extWrite a v).frame = s.frame := rfl
@[simp] theorem State.extWrite_achievedInterval (s : State) (a : Nat) (v : Byte) :
    (s.extWrite a v).achievedInterval = s.achievedInterval := rfl
@[simp] theorem State.extWrite_inbox (s : State) (a : Nat) (v : Byte) :
    (s.extWrite a v).inbox = s.inbox := rfl
@[simp] theorem State.extWrite_beside (s : State) (a : Nat) (v : Byte) :
    (s.extWrite a v).beside = s.beside := rfl
@[simp] theorem State.extWrite_target (s : State) (a : Nat) (v : Byte) :
    (s.extWrite a v).target = s.target := rfl
@[simp] theorem State.extWrite_resp (s : State) (a : Nat) (v : Byte) :
    (s.extWrite a v).resp = s.resp := rfl
@[simp] theorem State.extWrite_draws (s : State) (a : Nat) (v : Byte) :
    (s.extWrite a v).draws = s.draws := rfl

/-! ## `s.setCounter c` -/

@[simp] theorem State.setCounter_cfg (s : State) (c : Word) : (s.setCounter c).cfg = s.cfg := rfl
@[simp] theorem State.setCounter_nextFree (s : State) (c : Word) :
    (s.setCounter c).nextFree = s.nextFree := rfl
@[simp] theorem State.setCounter_devs (s : State) (c : Word) : (s.setCounter c).devs = s.devs := rfl
@[simp] theorem State.setCounter_gpu (s : State) (c : Word) :
    (s.setCounter c).gpu = { s.gpu with widthCounter := c } := rfl
@[simp] theorem State.setCounter_envDirty (s : State) (c : Word) :
    (s.setCounter c).envDirty = s.envDirty := rfl
@[simp] theorem State.setCounter_running (s : State) (c : Word) :
    (s.setCounter c).running = s.running := rfl
@[simp] theorem State.setCounter_phase (s : State) (c : Word) :
    (s.setCounter c).phase = s.phase := rfl
@[simp] theorem State.setCounter_fault (s : State) (c : Word) :
    (s.setCounter c).fault = s.fault := rfl
@[simp] theorem State.setCounter_frame (s : State) (c : Word) :
    (s.setCounter c).frame = s.frame := rfl
@[simp] theorem State.setCounter_achievedInterval (s : State) (c : Word) :
    (s.setCounter c).achievedInterval = s.achievedInterval := rfl
@[simp] theorem State.setCounter_inbox (s : State) (c : Word) :
    (s.setCounter c).inbox = s.inbox := rfl
@[simp] theorem State.setCounter_beside (s : State) (c : Word) :
    (s.setCounter c).beside = s.beside := rfl
@[simp] theorem State.setCounter_target (s : State) (c : Word) :
    (s.setCounter c).target = s.target := rfl
@[simp] theorem State.setCounter_resp (s : State) (c : Word) : (s.setCounter c).resp = s.resp := rfl
@[simp] theorem State.setCounter_draws (s : State) (c : Word) :
    (s.setCounter c).draws = s.draws := rfl

/-! ## `s.setPalEntry i w` -/

@[simp] theorem State.setPalEntry_cfg (s : State) (i : Nat) (w : Word) :
    (s.setPalEntry i w).cfg = s.cfg := rfl
@[simp] theorem State.setPalEntry_nextFree (s : State) (i : Nat) (w : Word) :
    (s.setPalEntry i w).nextFree = s.nextFree := rfl
@[simp] theorem State.setPalEntry_devs (s : State) (i : Nat) (w : Word) :
    (s.setPalEntry i w).devs = s.devs := rfl
@[simp] theorem State.setPalEntry_gpu (s : State) (i : Nat) (w : Word) :
    (s.setPalEntry i w).gpu = { s.gpu with palette := setEntry s.gpu.palette (s.devByte i regPalIndex) w } := rfl
@[simp] theorem State.setPalEntry_envDirty (s : State) (i : Nat) (w : Word) :
    (s.setPalEntry i w).envDirty = s.envDirty := rfl
@[simp] theorem State.setPalEntry_running (s : State) (i : Nat) (w : Word) :
    (s.setPalEntry i w).running = s.running := rfl
@[simp] theorem State.setPalEntry_phase (s : State) (i : Nat) (w : Word) :
    (s.setPalEntry i w).phase = s.phase := rfl
@[simp] theorem State.setPalEntry_fault (s : State) (i : Nat) (w : Word) :
    (s.setPalEntry i w).fault = s.fault := rfl
@[simp] theorem State.setPalEntry_frame (s : State) (i : Nat) (w : Word) :
    (s.setPalEntry i w).frame = s.frame := rfl
@[simp] theorem State.setPalEntry_achievedInterval (s : State) (i : Nat) (w : Word) :
    (s.setPalEntry i w).achievedInterval = s.achievedInterval := rfl
@[simp] theorem State.setPalEntry_inbox (s : State) (i : Nat) (w : Word) :
    (s.setPalEntry i w).inbox = s.inbox := rfl
@[simp] theorem State.setPalEntry_beside (s : State) (i : Nat) (w : Word) :
    (s.setPalEntry i w).beside = s.beside := rfl
@[simp] theorem State.setPalEntry_target (s : State) (i : Nat) (w : Word) :
    (s.setPalEntry i w).target = s.target := rfl
@[simp] theorem State.setPalEntry_resp (s : State) (i : Nat) (w : Word) :
    (s.setPalEntry i w).resp = s.resp := rfl
@[simp] theorem State.setPalEntry_draws (s : State) (i : Nat) (w : Word) :
    (s.setPalEntry i w).draws = s.draws := rfl

/-! ## `s.setEpalEntry i w` -/

@[simp] theorem State.setEpalEntry_cfg (s : State) (i : Nat) (w : Word) :
    (s.setEpalEntry i w).cfg = s.cfg := rfl
@[simp] theorem State.setEpalEntry_nextFree (s : State) (i : Nat) (w : Word) :
    (s.setEpalEntry i w).nextFree = s.nextFree := rfl
@[simp] theorem State.setEpalEntry_devs (s : State) (i : Nat) (w : Word) :
    (s.setEpalEntry i w).devs = s.devs := rfl
@[simp] theorem State.setEpalEntry_gpu (s : State) (i : Nat) (w : Word) :
    (s.setEpalEntry i w).gpu = { s.gpu with epalette := setEntry s.gpu.epalette (s.devByte i regEpalIndex) w } := rfl
@[simp] theorem State.setEpalEntry_envDirty (s : State) (i : Nat) (w : Word) :
    (s.setEpalEntry i w).envDirty = s.envDirty := rfl
@[simp] theorem State.setEpalEntry_running (s : State) (i : Nat) (w : Word) :
    (s.setEpalEntry i w).running = s.running := rfl
@[simp] theorem State.setEpalEntry_phase (s : State) (i : Nat) (w : Word) :
    (s.setEpalEntry i w).phase = s.phase := rfl
@[simp] theorem State.setEpalEntry_fault (s : State) (i : Nat) (w : Word) :
    (s.setEpalEntry i w).fault = s.fault := rfl
@[simp] theorem State.setEpalEntry_frame (s : State) (i : Nat) (w : Word) :
    (s.setEpalEntry i w).frame = s.frame := rfl
@[simp] theorem State.setEpalEntry_achievedInterval (s : State) (i : Nat) (w : Word) :
    (s.setEpalEntry i w).achievedInterval = s.achievedInterval := rfl
@[simp] theorem State.setEpalEntry_inbox (s : State) (i : Nat) (w : Word) :
    (s.setEpalEntry i w).inbox = s.inbox := rfl
@[simp] theorem State.setEpalEntry_beside (s : State) (i : Nat) (w : Word) :
    (s.setEpalEntry i w).beside = s.beside := rfl
@[simp] theorem State.setEpalEntry_target (s : State) (i : Nat) (w : Word) :
    (s.setEpalEntry i w).target = s.target := rfl
@[simp] theorem State.setEpalEntry_resp (s : State) (i : Nat) (w : Word) :
    (s.setEpalEntry i w).resp = s.resp := rfl
@[simp] theorem State.setEpalEntry_draws (s : State) (i : Nat) (w : Word) :
    (s.setEpalEntry i w).draws = s.draws := rfl

/-! ## `s.setGlyphRow i r v` -/

@[simp] theorem State.setGlyphRow_cfg (s : State) (i : Nat) (r : Fin 8) (v : Byte) :
    (s.setGlyphRow i r v).cfg = s.cfg := rfl
@[simp] theorem State.setGlyphRow_nextFree (s : State) (i : Nat) (r : Fin 8) (v : Byte) :
    (s.setGlyphRow i r v).nextFree = s.nextFree := rfl
@[simp] theorem State.setGlyphRow_devs (s : State) (i : Nat) (r : Fin 8) (v : Byte) :
    (s.setGlyphRow i r v).devs = s.devs := rfl
@[simp] theorem State.setGlyphRow_gpu (s : State) (i : Nat) (r : Fin 8) (v : Byte) :
    (s.setGlyphRow i r v).gpu = { s.gpu with glyph := setEntry s.gpu.glyph (s.devByte i regGlyphIndex) ((entry s.gpu.glyph (s.devByte i regGlyphIndex)).set r v) } := rfl
@[simp] theorem State.setGlyphRow_envDirty (s : State) (i : Nat) (r : Fin 8) (v : Byte) :
    (s.setGlyphRow i r v).envDirty = s.envDirty := rfl
@[simp] theorem State.setGlyphRow_running (s : State) (i : Nat) (r : Fin 8) (v : Byte) :
    (s.setGlyphRow i r v).running = s.running := rfl
@[simp] theorem State.setGlyphRow_phase (s : State) (i : Nat) (r : Fin 8) (v : Byte) :
    (s.setGlyphRow i r v).phase = s.phase := rfl
@[simp] theorem State.setGlyphRow_fault (s : State) (i : Nat) (r : Fin 8) (v : Byte) :
    (s.setGlyphRow i r v).fault = s.fault := rfl
@[simp] theorem State.setGlyphRow_frame (s : State) (i : Nat) (r : Fin 8) (v : Byte) :
    (s.setGlyphRow i r v).frame = s.frame := rfl
@[simp] theorem State.setGlyphRow_achievedInterval (s : State) (i : Nat) (r : Fin 8) (v : Byte) :
    (s.setGlyphRow i r v).achievedInterval = s.achievedInterval := rfl
@[simp] theorem State.setGlyphRow_inbox (s : State) (i : Nat) (r : Fin 8) (v : Byte) :
    (s.setGlyphRow i r v).inbox = s.inbox := rfl
@[simp] theorem State.setGlyphRow_beside (s : State) (i : Nat) (r : Fin 8) (v : Byte) :
    (s.setGlyphRow i r v).beside = s.beside := rfl
@[simp] theorem State.setGlyphRow_target (s : State) (i : Nat) (r : Fin 8) (v : Byte) :
    (s.setGlyphRow i r v).target = s.target := rfl
@[simp] theorem State.setGlyphRow_resp (s : State) (i : Nat) (r : Fin 8) (v : Byte) :
    (s.setGlyphRow i r v).resp = s.resp := rfl
@[simp] theorem State.setGlyphRow_draws (s : State) (i : Nat) (r : Fin 8) (v : Byte) :
    (s.setGlyphRow i r v).draws = s.draws := rfl

/-! ## `s.respond r` -/

@[simp] theorem State.respond_cfg (s : State) (r : Response) : (s.respond r).cfg = s.cfg := rfl
@[simp] theorem State.respond_nextFree (s : State) (r : Response) :
    (s.respond r).nextFree = s.nextFree := rfl
@[simp] theorem State.respond_devs (s : State) (r : Response) : (s.respond r).devs = s.devs := rfl
@[simp] theorem State.respond_gpu (s : State) (r : Response) : (s.respond r).gpu = s.gpu := rfl
@[simp] theorem State.respond_envDirty (s : State) (r : Response) :
    (s.respond r).envDirty = s.envDirty := rfl
@[simp] theorem State.respond_running (s : State) (r : Response) :
    (s.respond r).running = s.running := rfl
@[simp] theorem State.respond_phase (s : State) (r : Response) :
    (s.respond r).phase = s.phase := rfl
@[simp] theorem State.respond_fault (s : State) (r : Response) :
    (s.respond r).fault = s.fault := rfl
@[simp] theorem State.respond_frame (s : State) (r : Response) :
    (s.respond r).frame = s.frame := rfl
@[simp] theorem State.respond_achievedInterval (s : State) (r : Response) :
    (s.respond r).achievedInterval = s.achievedInterval := rfl
@[simp] theorem State.respond_inbox (s : State) (r : Response) :
    (s.respond r).inbox = s.inbox := rfl
@[simp] theorem State.respond_beside (s : State) (r : Response) :
    (s.respond r).beside = s.beside := rfl
@[simp] theorem State.respond_target (s : State) (r : Response) :
    (s.respond r).target = s.target := rfl
@[simp] theorem State.respond_resp (s : State) (r : Response) :
    (s.respond r).resp = s.resp ++ [r] := rfl
@[simp] theorem State.respond_draws (s : State) (r : Response) :
    (s.respond r).draws = s.draws := rfl

/-! ## `s.drawByte.2` -/

@[simp] theorem State.drawByte_cfg (s : State) : s.drawByte.2.cfg = s.cfg := rfl
@[simp] theorem State.drawByte_nextFree (s : State) : s.drawByte.2.nextFree = s.nextFree := rfl
@[simp] theorem State.drawByte_devs (s : State) : s.drawByte.2.devs = s.devs := rfl
@[simp] theorem State.drawByte_gpu (s : State) : s.drawByte.2.gpu = s.gpu := rfl
@[simp] theorem State.drawByte_envDirty (s : State) : s.drawByte.2.envDirty = s.envDirty := rfl
@[simp] theorem State.drawByte_running (s : State) : s.drawByte.2.running = s.running := rfl
@[simp] theorem State.drawByte_phase (s : State) : s.drawByte.2.phase = s.phase := rfl
@[simp] theorem State.drawByte_fault (s : State) : s.drawByte.2.fault = s.fault := rfl
@[simp] theorem State.drawByte_frame (s : State) : s.drawByte.2.frame = s.frame := rfl
@[simp] theorem State.drawByte_achievedInterval (s : State) :
    s.drawByte.2.achievedInterval = s.achievedInterval := rfl
@[simp] theorem State.drawByte_inbox (s : State) : s.drawByte.2.inbox = s.inbox := rfl
@[simp] theorem State.drawByte_beside (s : State) : s.drawByte.2.beside = s.beside := rfl
@[simp] theorem State.drawByte_target (s : State) : s.drawByte.2.target = s.target := rfl
@[simp] theorem State.drawByte_resp (s : State) : s.drawByte.2.resp = s.resp := rfl
@[simp] theorem State.drawByte_draws (s : State) : s.drawByte.2.draws = s.draws + 1 := rfl

/-! ## `s.raise r` -/

@[simp] theorem State.raise_cfg (s : State) (r : FatalReason) : (s.raise r).cfg = s.cfg := rfl
@[simp] theorem State.raise_nextFree (s : State) (r : FatalReason) :
    (s.raise r).nextFree = s.nextFree := rfl
@[simp] theorem State.raise_devs (s : State) (r : FatalReason) : (s.raise r).devs = s.devs := rfl
@[simp] theorem State.raise_gpu (s : State) (r : FatalReason) : (s.raise r).gpu = s.gpu := rfl
@[simp] theorem State.raise_envDirty (s : State) (r : FatalReason) :
    (s.raise r).envDirty = s.envDirty := rfl
@[simp] theorem State.raise_running (s : State) (r : FatalReason) :
    (s.raise r).running = s.running := rfl
@[simp] theorem State.raise_phase (s : State) (r : FatalReason) : (s.raise r).phase = s.phase := rfl
@[simp] theorem State.raise_fault (s : State) (r : FatalReason) : (s.raise r).fault = some r := rfl
@[simp] theorem State.raise_frame (s : State) (r : FatalReason) : (s.raise r).frame = s.frame := rfl
@[simp] theorem State.raise_achievedInterval (s : State) (r : FatalReason) :
    (s.raise r).achievedInterval = s.achievedInterval := rfl
@[simp] theorem State.raise_inbox (s : State) (r : FatalReason) : (s.raise r).inbox = s.inbox := rfl
@[simp] theorem State.raise_beside (s : State) (r : FatalReason) :
    (s.raise r).beside = s.beside := rfl
@[simp] theorem State.raise_target (s : State) (r : FatalReason) :
    (s.raise r).target = s.target := rfl
@[simp] theorem State.raise_resp (s : State) (r : FatalReason) : (s.raise r).resp = s.resp := rfl
@[simp] theorem State.raise_draws (s : State) (r : FatalReason) : (s.raise r).draws = s.draws := rfl

/-! ## `s.markDirty` -/

@[simp] theorem State.markDirty_cfg (s : State) : s.markDirty.cfg = s.cfg := rfl
@[simp] theorem State.markDirty_nextFree (s : State) : s.markDirty.nextFree = s.nextFree := rfl
@[simp] theorem State.markDirty_devs (s : State) : s.markDirty.devs = s.devs := rfl
@[simp] theorem State.markDirty_gpu (s : State) : s.markDirty.gpu = s.gpu := rfl
@[simp] theorem State.markDirty_envDirty (s : State) : s.markDirty.envDirty = true := rfl
@[simp] theorem State.markDirty_running (s : State) : s.markDirty.running = s.running := rfl
@[simp] theorem State.markDirty_phase (s : State) : s.markDirty.phase = s.phase := rfl
@[simp] theorem State.markDirty_fault (s : State) : s.markDirty.fault = s.fault := rfl
@[simp] theorem State.markDirty_frame (s : State) : s.markDirty.frame = s.frame := rfl
@[simp] theorem State.markDirty_achievedInterval (s : State) :
    s.markDirty.achievedInterval = s.achievedInterval := rfl
@[simp] theorem State.markDirty_inbox (s : State) : s.markDirty.inbox = s.inbox := rfl
@[simp] theorem State.markDirty_beside (s : State) : s.markDirty.beside = s.beside := rfl
@[simp] theorem State.markDirty_target (s : State) : s.markDirty.target = s.target := rfl
@[simp] theorem State.markDirty_resp (s : State) : s.markDirty.resp = s.resp := rfl
@[simp] theorem State.markDirty_draws (s : State) : s.markDirty.draws = s.draws := rfl

/-! ## `s.clearDirty` -/

@[simp] theorem State.clearDirty_cfg (s : State) : s.clearDirty.cfg = s.cfg := rfl
@[simp] theorem State.clearDirty_nextFree (s : State) : s.clearDirty.nextFree = s.nextFree := rfl
@[simp] theorem State.clearDirty_devs (s : State) : s.clearDirty.devs = s.devs := rfl
@[simp] theorem State.clearDirty_gpu (s : State) : s.clearDirty.gpu = s.gpu := rfl
@[simp] theorem State.clearDirty_envDirty (s : State) : s.clearDirty.envDirty = false := rfl
@[simp] theorem State.clearDirty_running (s : State) : s.clearDirty.running = s.running := rfl
@[simp] theorem State.clearDirty_phase (s : State) : s.clearDirty.phase = s.phase := rfl
@[simp] theorem State.clearDirty_fault (s : State) : s.clearDirty.fault = s.fault := rfl
@[simp] theorem State.clearDirty_frame (s : State) : s.clearDirty.frame = s.frame := rfl
@[simp] theorem State.clearDirty_achievedInterval (s : State) :
    s.clearDirty.achievedInterval = s.achievedInterval := rfl
@[simp] theorem State.clearDirty_inbox (s : State) : s.clearDirty.inbox = s.inbox := rfl
@[simp] theorem State.clearDirty_beside (s : State) : s.clearDirty.beside = s.beside := rfl
@[simp] theorem State.clearDirty_target (s : State) : s.clearDirty.target = s.target := rfl
@[simp] theorem State.clearDirty_resp (s : State) : s.clearDirty.resp = s.resp := rfl
@[simp] theorem State.clearDirty_draws (s : State) : s.clearDirty.draws = s.draws := rfl

/-! ## `s.latch r rest` -/

@[simp] theorem State.latch_cfg (s : State) (r : Request) (rest : List Entry) :
    (s.latch r rest).cfg = s.cfg := rfl
@[simp] theorem State.latch_nextFree (s : State) (r : Request) (rest : List Entry) :
    (s.latch r rest).nextFree = s.nextFree := rfl
@[simp] theorem State.latch_devs (s : State) (r : Request) (rest : List Entry) :
    (s.latch r rest).devs = s.devs := rfl
@[simp] theorem State.latch_gpu (s : State) (r : Request) (rest : List Entry) :
    (s.latch r rest).gpu = s.gpu := rfl
@[simp] theorem State.latch_envDirty (s : State) (r : Request) (rest : List Entry) :
    (s.latch r rest).envDirty = s.envDirty := rfl
@[simp] theorem State.latch_running (s : State) (r : Request) (rest : List Entry) :
    (s.latch r rest).running = s.running := rfl
@[simp] theorem State.latch_phase (s : State) (r : Request) (rest : List Entry) :
    (s.latch r rest).phase = s.phase := rfl
@[simp] theorem State.latch_fault (s : State) (r : Request) (rest : List Entry) :
    (s.latch r rest).fault = s.fault := rfl
@[simp] theorem State.latch_frame (s : State) (r : Request) (rest : List Entry) :
    (s.latch r rest).frame = s.frame := rfl
@[simp] theorem State.latch_achievedInterval (s : State) (r : Request) (rest : List Entry) :
    (s.latch r rest).achievedInterval = s.achievedInterval := rfl
@[simp] theorem State.latch_inbox (s : State) (r : Request) (rest : List Entry) :
    (s.latch r rest).inbox = rest := rfl
@[simp] theorem State.latch_beside (s : State) (r : Request) (rest : List Entry) :
    (s.latch r rest).beside = r.beside := rfl
@[simp] theorem State.latch_target (s : State) (r : Request) (rest : List Entry) :
    (s.latch r rest).target = r.port.targetOr s.target := rfl
@[simp] theorem State.latch_resp (s : State) (r : Request) (rest : List Entry) :
    (s.latch r rest).resp = [] := rfl
@[simp] theorem State.latch_draws (s : State) (r : Request) (rest : List Entry) :
    (s.latch r rest).draws = s.draws := rfl

/-! ## `s.relatch o rest` -/

@[simp] theorem State.relatch_cfg (s : State) (o : Ongoing) (rest : List Entry) :
    (s.relatch o rest).cfg = s.cfg := rfl
@[simp] theorem State.relatch_nextFree (s : State) (o : Ongoing) (rest : List Entry) :
    (s.relatch o rest).nextFree = s.nextFree := rfl
@[simp] theorem State.relatch_devs (s : State) (o : Ongoing) (rest : List Entry) :
    (s.relatch o rest).devs = s.devs := rfl
@[simp] theorem State.relatch_gpu (s : State) (o : Ongoing) (rest : List Entry) :
    (s.relatch o rest).gpu = s.gpu := rfl
@[simp] theorem State.relatch_envDirty (s : State) (o : Ongoing) (rest : List Entry) :
    (s.relatch o rest).envDirty = s.envDirty := rfl
@[simp] theorem State.relatch_running (s : State) (o : Ongoing) (rest : List Entry) :
    (s.relatch o rest).running = s.running := rfl
@[simp] theorem State.relatch_phase (s : State) (o : Ongoing) (rest : List Entry) :
    (s.relatch o rest).phase = s.phase := rfl
@[simp] theorem State.relatch_fault (s : State) (o : Ongoing) (rest : List Entry) :
    (s.relatch o rest).fault = s.fault := rfl
@[simp] theorem State.relatch_frame (s : State) (o : Ongoing) (rest : List Entry) :
    (s.relatch o rest).frame = s.frame := rfl
@[simp] theorem State.relatch_achievedInterval (s : State) (o : Ongoing) (rest : List Entry) :
    (s.relatch o rest).achievedInterval = s.achievedInterval := rfl
@[simp] theorem State.relatch_inbox (s : State) (o : Ongoing) (rest : List Entry) :
    (s.relatch o rest).inbox = rest := rfl
@[simp] theorem State.relatch_beside (s : State) (o : Ongoing) (rest : List Entry) :
    (s.relatch o rest).beside = o.beside := rfl
@[simp] theorem State.relatch_target (s : State) (o : Ongoing) (rest : List Entry) :
    (s.relatch o rest).target = s.target := rfl
@[simp] theorem State.relatch_resp (s : State) (o : Ongoing) (rest : List Entry) :
    (s.relatch o rest).resp = [] := rfl
@[simp] theorem State.relatch_draws (s : State) (o : Ongoing) (rest : List Entry) :
    (s.relatch o rest).draws = s.draws := rfl

/-! ## `s.appendDevice k n` -/

@[simp] theorem State.appendDevice_cfg (s : State) (k : DeviceKind) (n : Nat) :
    (s.appendDevice k n).cfg = s.cfg := rfl
@[simp] theorem State.appendDevice_nextFree (s : State) (k : DeviceKind) (n : Nat) :
    (s.appendDevice k n).nextFree = s.nextFree + n := rfl
@[simp] theorem State.appendDevice_gpu (s : State) (k : DeviceKind) (n : Nat) :
    (s.appendDevice k n).gpu = s.gpu := rfl
@[simp] theorem State.appendDevice_envDirty (s : State) (k : DeviceKind) (n : Nat) :
    (s.appendDevice k n).envDirty = s.envDirty := rfl
@[simp] theorem State.appendDevice_running (s : State) (k : DeviceKind) (n : Nat) :
    (s.appendDevice k n).running = s.running := rfl
@[simp] theorem State.appendDevice_phase (s : State) (k : DeviceKind) (n : Nat) :
    (s.appendDevice k n).phase = s.phase := rfl
@[simp] theorem State.appendDevice_fault (s : State) (k : DeviceKind) (n : Nat) :
    (s.appendDevice k n).fault = s.fault := rfl
@[simp] theorem State.appendDevice_frame (s : State) (k : DeviceKind) (n : Nat) :
    (s.appendDevice k n).frame = s.frame := rfl
@[simp] theorem State.appendDevice_achievedInterval (s : State) (k : DeviceKind) (n : Nat) :
    (s.appendDevice k n).achievedInterval = s.achievedInterval := rfl
@[simp] theorem State.appendDevice_inbox (s : State) (k : DeviceKind) (n : Nat) :
    (s.appendDevice k n).inbox = s.inbox := rfl
@[simp] theorem State.appendDevice_beside (s : State) (k : DeviceKind) (n : Nat) :
    (s.appendDevice k n).beside = s.beside := rfl
@[simp] theorem State.appendDevice_target (s : State) (k : DeviceKind) (n : Nat) :
    (s.appendDevice k n).target = s.target := rfl
@[simp] theorem State.appendDevice_resp (s : State) (k : DeviceKind) (n : Nat) :
    (s.appendDevice k n).resp = s.resp := rfl
@[simp] theorem State.appendDevice_draws (s : State) (k : DeviceKind) (n : Nat) :
    (s.appendDevice k n).draws = s.draws := rfl

end Sys2Proof.Machine
end

