-- ==== Sys2Proof/Laws/Ops.lean ====
section
/-! SUPPORT. One lemma for each shared operation that says what it can do: storing and reading backing
bytes, admission and the ports, fan-outs, routing. Later proofs cite these and unfold none of them. -/

namespace Sys2Proof.Machine

/-! ## Backing bytes -/

@[simp] theorem Device.setByte_kind (d : Device) (off : Nat) (v : Byte) :
    (d.setByte off v).kind = d.kind := rfl

@[simp] theorem Device.setByte_range (d : Device) (off : Nat) (v : Byte) :
    (d.setByte off v).range = d.range := rfl

@[simp] theorem Device.setByte_backing (d : Device) (off : Nat) (v : Byte) :
    (d.setByte off v).backing = d.backing.write off v := rfl

/-- The j-th device after a store into the i-th. -/
theorem State.setDevByte_getElem? (s : State) (i off : Nat) (v : Byte) (j : Nat) :
    (s.setDevByte i off v).devs[j]? =
      if i = j then (s.devs[j]?).map (fun d => d.setByte off v) else s.devs[j]? := by
  simp only [State.setDevByte_devs, List.getElem?_modify]
  cases s.devs[j]? <;> split_ifs <;> rfl

/-- The device stored into. -/
theorem State.setDevByte_getElem?_self {s : State} {i : Nat} {d : Device} (h : s.devs[i]? = some d)
    (off : Nat) (v : Byte) : (s.setDevByte i off v).devs[i]? = some (d.setByte off v) := by
  rw [State.setDevByte_getElem?, if_pos rfl, h]; rfl

theorem State.devByte_of_getElem? {s : State} {i : Nat} {d : Device} (h : s.devs[i]? = some d)
    (off : Nat) : s.devByte i off = d.backing.read off := by
  simp only [State.devByte, h]

/-- The byte stored reads back, in a device whose backing is canonical. -/
theorem State.devByte_setDevByte_self {s : State} {i : Nat} {d : Device} (h : s.devs[i]? = some d)
    (hw : d.backing.wf = true) (off : Nat) (v : Byte) : (s.setDevByte i off v).devByte i off = v := by
  rw [State.devByte_of_getElem? (State.setDevByte_getElem?_self h off v), Device.setByte_backing,
    Memory.read_write_self _ _ _ hw]

/-- Every other byte reads as before. -/
theorem State.devByte_setDevByte_ne (s : State) {i off j o : Nat} (v : Byte) (h : ¬(j = i ∧ o = off)) :
    (s.setDevByte i off v).devByte j o = s.devByte j o := by
  simp only [State.devByte, State.setDevByte_getElem?]
  by_cases hij : i = j
  · have ho : o ≠ off := fun ho => h ⟨hij.symm, ho⟩
    rw [if_pos hij]
    cases s.devs[j]? with
    | none => rfl
    | some d => exact Memory.read_write_ne _ _ _ _ ho
  · rw [if_neg hij]

/-- The i-th device is attached and its backing is canonical: what reading back a store needs. -/
def State.Canonical (s : State) (i : Nat) : Prop := ∃ d, s.devs[i]? = some d ∧ d.backing.wf = true

@[simp] theorem State.Canonical.setDevByte {s : State} {i : Nat} (h : s.Canonical i) (off : Nat)
    (v : Byte) : (s.setDevByte i off v).Canonical i := by
  obtain ⟨d, hd, hw⟩ := h
  exact ⟨_, State.setDevByte_getElem?_self hd off v, Memory.wf_write _ _ _ hw⟩

/-- A read of any byte after a store. -/
theorem State.devByte_setDevByte {s : State} {i : Nat} (h : s.Canonical i) (off j o : Nat) (v : Byte) :
    (s.setDevByte i off v).devByte j o = if j = i ∧ o = off then v else s.devByte j o := by
  obtain ⟨d, hd, hw⟩ := h
  split_ifs with hj
  · rw [hj.1, hj.2, State.devByte_setDevByte_self hd hw]
  · exact State.devByte_setDevByte_ne s v hj

@[simp] theorem State.setDevByte_sameDevices (s : State) (i off : Nat) (v : Byte) :
    SameDevices s (s.setDevByte i off v) := by
  refine List.ext_getElem? fun j => ?_
  rw [List.getElem?_map, List.getElem?_map, State.setDevByte_getElem?]
  cases s.devs[j]? <;> split_ifs <;> rfl

theorem SameDevices.refl (s : State) : SameDevices s s := rfl

theorem SameDevices.trans {s t u : State} (h : SameDevices s t) (h' : SameDevices t u) :
    SameDevices s u := Eq.trans h' h

theorem BytesKept.refl (s : State) (stored : Nat → Nat → Prop) : BytesKept s s stored :=
  fun _ _ _ => rfl

theorem BytesKept.trans {s t u : State} {stored : Nat → Nat → Prop} (h : BytesKept s t stored)
    (h' : BytesKept t u stored) : BytesKept s u stored :=
  fun i off hi => (h' i off hi).trans (h i off hi)

theorem BytesKept.mono {s t : State} {p q : Nat → Nat → Prop} (h : BytesKept s t p)
    (hpq : ∀ i off, p i off → q i off) : BytesKept s t q :=
  fun i off hi => h i off fun hp => hi (hpq i off hp)

/-- A store keeps every byte but its own. -/
theorem State.setDevByte_bytesKept (s : State) (i off : Nat) (v : Byte) :
    BytesKept s (s.setDevByte i off v) (fun j o => j = i ∧ o = off) :=
  fun _ _ h => State.devByte_setDevByte_ne s v h

/-- What a store does, in one statement: the byte, and nothing else. -/
theorem State.setDevByte_storesByte {s : State} {i : Nat} {d : Device} (h : s.devs[i]? = some d)
    (hw : d.backing.wf = true) (off : Nat) (v : Byte) : StoresByte s (s.setDevByte i off v) i off v :=
  ⟨State.devByte_setDevByte_self h hw off v, rfl, State.setDevByte_sameDevices s i off v,
    State.setDevByte_bytesKept s i off v⟩

/-- The i-th device of a state with the same devices has the same kind and range. -/
theorem SameDevices.getElem? {s t : State} (h : SameDevices s t) {i : Nat} {d : Device}
    (hd : s.devs[i]? = some d) : ∃ e, t.devs[i]? = some e ∧ e.kind = d.kind ∧ e.range = d.range := by
  have := congrArg (fun l => l[i]?) h
  simp only [List.getElem?_map, hd, Option.map_some] at this
  cases ht : t.devs[i]? with
  | none => simp [ht] at this
  | some e =>
    rw [ht] at this
    simp only [Option.map_some, Option.some.injEq, Prod.mk.injEq] at this
    exact ⟨e, rfl, this⟩

/-- Storing keeps a backing canonical and inside its range. -/
theorem Device.Sound.setByte {d : Device} (h : d.Sound) {off : Nat} (ho : off < d.range.size) (v : Byte) :
    (d.setByte off v).Sound :=
  ⟨Memory.wf_write _ _ _ h.1, Memory.below_write _ _ _ _ ho h.2.1, h.2.2.1, h.2.2.2⟩

/-! ## Admission and ports -/

/-- What `whenAdmitted` can do: a fault while one is set or outside the phases, else the operation. -/
theorem State.admit_eq_next {s t : State} {ok : Bool} {act : Host.Outcome State Fault Refusal} :
    s.whenAdmitted ok act = .next t ↔ s.fault = none ∧ ok = true ∧ act = .next t := by
  unfold State.whenAdmitted
  cases s.fault <;> cases ok <;> simp

theorem State.admit_open {s : State} {ok : Bool} (hf : s.fault = none) (hok : ok = true)
    (act : Host.Outcome State Fault Refusal) : s.whenAdmitted ok act = act := by
  simp [State.whenAdmitted, hf, hok]

theorem State.BusOpen.busOpen {s : State} (h : s.BusOpen) : s.busOpen = true := by
  rcases h.2 with hp | hp <;> simp [State.busOpen, hp]

theorem State.BusOpen.whenAdmitted {s : State} (h : s.BusOpen) (act : Host.Outcome State Fault Refusal) :
    s.whenAdmitted s.busOpen act = act := State.admit_open h.1 h.busOpen act

theorem State.LoopOpen.whenAdmitted {s : State} (h : s.LoopOpen) (act : Host.Outcome State Fault Refusal) :
    s.whenAdmitted s.loopOpen act = act :=
  State.admit_open h.1 (by simp [State.loopOpen, h.2.1, h.2.2]) act

/-- A row of a kind at a device of that kind runs. -/
theorem State.PortOpen.atDevice {s : State} {k : DeviceKind} (h : s.PortOpen k)
    (act : Nat → State → State) : s.atDevice k act = .next (act s.target s) := by
  obtain ⟨hb, d, hd, hk⟩ := h
  rw [State.atDevice, hb.whenAdmitted, hd]
  exact if_pos hk

/-- What a row of a kind can do: run, at a device of that kind. -/
theorem State.atDevice_eq_next {s t : State} {k : DeviceKind} {act : Nat → State → State} :
    s.atDevice k act = .next t ↔
      s.fault = none ∧ s.busOpen = true ∧ (∃ d, s.devs[s.target]? = some d ∧ d.kind = k) ∧
        t = act s.target s := by
  rw [State.atDevice, State.admit_eq_next]
  cases s.devs[s.target]? with
  | none => simp
  | some d => by_cases hk : d.kind = k <;> simp [hk, @eq_comm State t]

/-- What a generic row can do: run, at an offset inside a device whose row it is. -/
theorem State.atByte_eq_next {s t : State} {off : Word} {row : Device → Bool}
    {act : Nat → Device → State → State} :
    s.atByte off row act = .next t ↔
      s.fault = none ∧ s.busOpen = true ∧
        ∃ d, s.devs[s.target]? = some d ∧ off.toNat < d.range.size ∧ row d = true ∧
          t = act s.target d s := by
  rw [State.atByte, State.admit_eq_next]
  cases s.devs[s.target]? with
  | none => simp
  | some d =>
    by_cases ho : off.toNat < d.range.size <;> by_cases hr : row d = true <;> simp [ho, hr, @eq_comm State t]

theorem State.BusOpen.atByte {s : State} (h : s.BusOpen) {d : Device} (hd : s.devs[s.target]? = some d)
    {off : Word} (ho : off.toNat < d.range.size) {row : Device → Bool} (hr : row d = true)
    (act : Nat → Device → State → State) : s.atByte off row act = .next (act s.target d s) := by
  rw [State.atByte, h.whenAdmitted, hd]
  simp [ho, hr]

/-! ## Fan-outs -/

/-- A fan-out keeps what every callback keeps. -/
theorem fanOutFrom_induction {callback : DeviceKind → Nat → State → State} {p : State → Prop}
    (step : ∀ k i s, p s → p (callback k i s)) (ks : List DeviceKind) (i : Nat) (s : State) (h : p s) :
    p (fanOutFrom callback ks i s) := by
  induction ks generalizing i s with
  | nil => exact h
  | cons k rest ih =>
    rw [fanOutFrom]
    split
    · exact h
    · exact ih _ _ (step k i s h)

theorem State.fanOut_induction {callback : DeviceKind → Nat → State → State} {p : State → Prop}
    (step : ∀ k i s, p s → p (callback k i s)) (s : State) (h : p s) : p (s.fanOut callback) :=
  fanOutFrom_induction step _ _ _ h

/-- A fan-out of callbacks that change nothing changes nothing. -/
theorem State.fanOut_noop {callback : DeviceKind → Nat → State → State}
    (noop : ∀ k i s, callback k i s = s) (s : State) : s.fanOut callback = s :=
  State.fanOut_induction (p := fun t => t = s) (fun k i t h => by rw [noop, h]) s rfl

/-! ## Routing -/

theorem AddressRange.contains_iff (r : AddressRange) (a : Nat) :
    r.contains a = true ↔ r.base ≤ a ∧ a < r.base + r.size := by
  simp [AddressRange.contains]

/-- A device that is selected contains the address. -/
theorem State.select_maps {s : State} {a : Word} {i : Nat} (h : s.select a = some i) :
    ∃ d, s.Maps a i d := by
  obtain ⟨hi, hc, -⟩ := List.findIdx?_eq_some_iff_getElem.mp h
  exact ⟨s.devs[i], List.getElem?_eq_getElem hi, (AddressRange.contains_iff _ _).mp hc⟩

/-- No device is selected where none contains the address. -/
theorem State.select_eq_none_iff {s : State} {a : Word} : s.select a = none ↔ s.Unmapped a := by
  rw [State.select, List.findIdx?_eq_none_iff]
  constructor
  · rintro h i d ⟨hd, hlo, hhi⟩
    have := h d (List.mem_of_getElem? hd)
    rw [(AddressRange.contains_iff _ _).mpr ⟨hlo, hhi⟩] at this
    exact Bool.noConfusion this
  · intro h d hd
    obtain ⟨i, hi⟩ := List.getElem?_of_mem hd
    by_contra hc
    rw [Bool.not_eq_false] at hc
    exact h i d ⟨hi, (AddressRange.contains_iff _ _).mp hc⟩

/-- In a contiguous layout every range lies at or after its start and ends by its end. -/
theorem LayoutFrom.bounds {a e : Nat} {l : List Device} (h : LayoutFrom a l e) :
    a ≤ e ∧ ∀ d ∈ l, a ≤ d.range.base ∧ d.range.base + d.range.size ≤ e := by
  induction l generalizing a with
  | nil => exact ⟨Nat.le_of_eq h, fun _ hd => absurd hd (List.not_mem_nil)⟩
  | cons c rest ih =>
    obtain ⟨hc, hr⟩ := h
    obtain ⟨hle, hb⟩ := ih hr
    refine ⟨by omega, fun d hd => ?_⟩
    rcases List.mem_cons.mp hd with rfl | hd
    · omega
    · have := hb d hd; omega

/-- Every range ends at most at 65536, and its base is at most 65535 where it holds a byte (10_state.md R33;
log 22). -/
theorem State.Inv.base_le {s : State} (h : s.Inv) {d : Device} (hd : d ∈ s.devs) :
    d.range.base + d.range.size ≤ 65536 ∧ (0 < d.range.size → d.range.base ≤ 65535) := by
  have he := (h.layout.bounds.2 d hd).2
  have hb : s.nextFree ≤ 65536 := h.bound
  omega

/-- In a contiguous layout at most one device contains an address. -/
theorem LayoutFrom.unique {a e x : Nat} {l : List Device} (h : LayoutFrom a l e) {i j : Nat}
    {c d : Device} (hi : l[i]? = some c) (hj : l[j]? = some d)
    (hc : c.range.base ≤ x ∧ x < c.range.base + c.range.size)
    (hd : d.range.base ≤ x ∧ x < d.range.base + d.range.size) : i = j := by
  induction l generalizing a i j with
  | nil => simp at hi
  | cons b rest ih =>
    obtain ⟨hb, hr⟩ := h
    have after {k : Nat} {f : Device} (hf : rest[k]? = some f) : b.range.base + b.range.size ≤ f.range.base := by
      have := (hr.bounds.2 f (List.mem_of_getElem? hf)).1
      omega
    cases i with
    | zero =>
      cases j with
      | zero => rfl
      | succ j =>
        simp only [List.getElem?_cons_zero, Option.some.injEq] at hi
        have := after hj
        subst hi; omega
    | succ i =>
      cases j with
      | zero =>
        simp only [List.getElem?_cons_zero, Option.some.injEq] at hj
        have := after hi
        subst hj; omega
      | succ j => exact congrArg (· + 1) (ih hr hi hj)

/-- In a contiguous layout the device that contains an address is the one selected. -/
theorem State.Inv.select_eq {s : State} (h : s.Inv) {a : Word} {i : Nat} {d : Device}
    (hm : s.Maps a i d) : s.select a = some i := by
  cases hs : s.select a with
  | none => exact absurd hm (State.select_eq_none_iff.mp hs i d)
  | some j =>
    obtain ⟨e, he⟩ := State.select_maps hs
    rw [h.layout.unique he.1 hm.1 he.2 hm.2]

/-- A device of a sound state is sound. -/
theorem State.Inv.sound {s : State} (h : s.Inv) {i : Nat} {d : Device} (hd : s.devs[i]? = some d) :
    d.Sound := h.devices d (List.mem_of_getElem? hd)

theorem State.Inv.canonical {s : State} (h : s.Inv) {i : Nat} {d : Device} (hd : s.devs[i]? = some d) :
    s.Canonical i := ⟨d, hd, (h.sound hd).1⟩

end Sys2Proof.Machine
end

