-- ==== Sys2Proof/Laws/Effects.lean ====
section
/-! SUPPORT. What the handlers and the bus can change, once for each shared operation: everything outside
the devices, the GPU's internal state, the dirty flag and the draw counter stays; a device-local operation
reaches no other device; the invariant of the layout is kept. -/

namespace Sys2Proof.Machine

/-! ## What a transaction leaves alone -/

/-- From `s` to `t` only backing bytes, the GPU's internal state, the dirty flag, the draw counter and the
responses may have changed, and no device but the i-th. -/
structure Reaches (i : Nat) (s t : State) : Prop where
  rest : { t with devs := s.devs, gpu := s.gpu, envDirty := s.envDirty, draws := s.draws, resp := s.resp } = s
  devices : SameDevices s t
  others : ∀ j, j ≠ i → t.devs[j]? = s.devs[j]?

theorem Reaches.refl (i : Nat) (s : State) : Reaches i s s := ⟨rfl, rfl, fun _ _ => rfl⟩

theorem Reaches.trans {i : Nat} {s t u : State} (h : Reaches i s t) (h' : Reaches i t u) :
    Reaches i s u := by
  refine ⟨?_, h.devices.trans h'.devices, fun j hj => (h'.others j hj).trans (h.others j hj)⟩
  have e := h.rest
  have e' := h'.rest
  rw [← e'] at e
  exact e

theorem Reaches.cfg {i : Nat} {s t : State} (h : Reaches i s t) : t.cfg = s.cfg := by rw [← h.rest]
theorem Reaches.phase {i : Nat} {s t : State} (h : Reaches i s t) : t.phase = s.phase := by rw [← h.rest]
theorem Reaches.fault {i : Nat} {s t : State} (h : Reaches i s t) : t.fault = s.fault := by rw [← h.rest]
theorem Reaches.running {i : Nat} {s t : State} (h : Reaches i s t) : t.running = s.running := by
  rw [← h.rest]
theorem Reaches.target {i : Nat} {s t : State} (h : Reaches i s t) : t.target = s.target := by
  rw [← h.rest]
theorem Reaches.nextFree {i : Nat} {s t : State} (h : Reaches i s t) : t.nextFree = s.nextFree := by
  rw [← h.rest]

theorem State.setDevByte_reaches (s : State) (i off : Nat) (v : Byte) : Reaches i s (s.setDevByte i off v) :=
  ⟨rfl, State.setDevByte_sameDevices s i off v, fun j hj => by
    rw [State.setDevByte_getElem?, if_neg (Ne.symm hj)]⟩

theorem State.setDevWord_reaches (s : State) (i off : Nat) (w : Word) : Reaches i s (s.setDevWord i off w) :=
  (State.setDevByte_reaches s i off _).trans (State.setDevByte_reaches _ i (off + 1) _)

theorem State.setError_reaches (s : State) (i : Nat) (c : ErrorCode) : Reaches i s (s.setError i c) :=
  State.setDevByte_reaches s i _ _

theorem Reaches.ofGpu (i : Nat) (s : State) (g : GpuState) : Reaches i s { s with gpu := g } :=
  ⟨rfl, rfl, fun _ _ => rfl⟩

theorem State.commitPass_reaches (s : State) (i : Nat) (r : Applied) : Reaches i s (s.commitPass i r) :=
  (((State.setDevByte_reaches s i _ _).trans (State.setDevByte_reaches _ i _ _)).trans
    (State.setDevWord_reaches _ i _ _)).trans (Reaches.ofGpu i _ _)

theorem State.revertMode_reaches (s : State) (i : Nat) : Reaches i s (s.revertMode i) :=
  (State.setDevByte_reaches s i _ _).trans (State.setDevByte_reaches _ i _ _)

theorem State.runPass_reaches (s : State) (i : Nat) (m r : Byte) : Reaches i s (s.runPass i m r) := by
  unfold State.runPass
  split
  · exact State.commitPass_reaches s i _
  · exact State.revertMode_reaches s i
  · exact (State.setError_reaches s i _).trans (State.revertMode_reaches _ i)

theorem State.markDirty_reaches (s : State) (i : Nat) : Reaches i s s.markDirty :=
  ⟨rfl, rfl, fun _ _ => rfl⟩

theorem State.respond_reaches (s : State) (i : Nat) (r : Response) : Reaches i s (s.respond r) :=
  ⟨rfl, rfl, fun _ _ => rfl⟩

theorem State.drawByte_reaches (s : State) (i : Nat) : Reaches i s s.drawByte.2 :=
  ⟨rfl, rfl, fun _ _ => rfl⟩

theorem writeMode_reaches (i : Nat) (v : Byte) (s : State) : Reaches i s (writeMode i v s) :=
  ((State.setDevByte_reaches s i _ _).trans (State.markDirty_reaches _ i)).trans
    (State.runPass_reaches _ i _ _)

theorem writeRes_reaches (i : Nat) (v : Byte) (s : State) : Reaches i s (writeRes i v s) :=
  ((State.setDevByte_reaches s i _ _).trans (State.markDirty_reaches _ i)).trans
    (State.runPass_reaches _ i _ _)

theorem writeOptions_reaches (i : Nat) (v : Byte) (s : State) : Reaches i s (writeOptions i v s) :=
  ((State.setDevByte_reaches s i _ _).trans (State.markDirty_reaches _ i)).trans (Reaches.ofGpu i _ _)

theorem writeBlitWidth_reaches (i off : Nat) (v : Byte) (s : State) :
    Reaches i s (writeBlitWidth i off v s) :=
  (State.setDevByte_reaches s i _ _).trans (Reaches.ofGpu i _ _)

theorem State.blitAdvance_reaches (s : State) (i : Nat) : Reaches i s (s.blitAdvance i) :=
  (Reaches.ofGpu i s _).trans (State.setDevWord_reaches _ i _ _)

theorem blitWrite_reaches (i : Nat) (v : Byte) (s : State) : Reaches i s (blitWrite i v s) :=
  (Reaches.ofGpu i s _).trans (State.blitAdvance_reaches _ i)

theorem State.commitHandler_reaches (s : State) (i : Nat) (w : HandlerWrites) :
    Reaches i s (s.commitHandler i w) :=
  (((Reaches.ofGpu i s _).trans (State.setDevWord_reaches _ i _ _)).trans
    (State.setDevWord_reaches _ i _ _)).trans (State.setDevWord_reaches _ i _ _)

theorem State.dispatchWith_reaches (s : State) (i : Nat) (hs : Nat → HandlerView → HandlerResult)
    (op : Byte) : Reaches i s (s.dispatchWith i hs op) := by
  unfold State.dispatchWith
  split
  · refine Reaches.trans ?_ (State.setDevByte_reaches _ i _ _)
    unfold State.runHandler
    split
    · exact State.commitHandler_reaches s i _
    · exact State.setError_reaches s i _
  · exact (State.setError_reaches s i _).trans (State.setDevByte_reaches _ i _ _)

theorem gpuWrite_reaches (i off : Nat) (v : Byte) (s : State) : Reaches i s (gpuWrite i off v s) := by
  unfold gpuWrite
  split
  case h_1 => exact writeMode_reaches i v s
  case h_2 => exact writeRes_reaches i v s
  case h_3 => exact writeOptions_reaches i v s
  case h_18 => exact writeBlitWidth_reaches i _ v s
  case h_19 => exact writeBlitWidth_reaches i _ v s
  case h_20 => exact blitWrite_reaches i v s
  case h_21 => exact State.dispatchWith_reaches s i _ v
  case h_23 => exact State.setDevByte_reaches s i _ v
  all_goals first | exact Reaches.refl i s | exact Reaches.ofGpu i s _

theorem gpuRead_reaches (i off : Nat) (s : State) : Reaches i s (gpuRead i off s).2 := by
  unfold gpuRead
  split
  case h_13 => exact State.blitAdvance_reaches s i
  all_goals exact Reaches.refl i s

theorem devRead_reaches (k : DeviceKind) (i off : Nat) (dbg : Bool) (s : State) :
    Reaches i s (devRead k i off dbg s).2 := by
  unfold devRead
  cases dbg
  case true => exact Reaches.refl i s
  case false =>
    rw [if_neg (by decide)]
    cases k
    case gpu => exact gpuRead_reaches i off s
    case other => exact State.drawByte_reaches s i
    all_goals exact Reaches.refl i s

theorem devWrite_reaches (k : DeviceKind) (i off : Nat) (v : Byte) (dbg : Bool) (s : State) :
    Reaches i s (devWrite k i off v dbg s) := by
  unfold devWrite
  cases dbg
  case true => exact State.setDevByte_reaches s i off v
  case false =>
    rw [if_neg (by decide)]
    cases k
    case gpu => exact gpuWrite_reaches i off v s
    case sys =>
      dsimp only
      split_ifs
      · exact State.setDevByte_reaches s i _ _
      · exact State.setDevByte_reaches s i _ _
    case rom => exact Reaches.refl i s
    case other => exact Reaches.refl i s
    all_goals exact State.setDevByte_reaches s i off v

/-! ## The bus -/

/-- What a byte read of the bus can do: open bus, or the read of the device that contains the address. -/
theorem busRead_cases (a : Word) (dbg : Bool) (s : State) :
    (s.Unmapped a ∧ busRead a dbg s = (openBus, s)) ∨
      ∃ i d, s.select a = some i ∧ s.Maps a i d ∧
        busRead a dbg s = devRead d.kind i (a.toNat - d.range.base) dbg s := by
  unfold busRead
  cases hs : s.select a with
  | none => exact Or.inl ⟨State.select_eq_none_iff.mp hs, rfl⟩
  | some i =>
    obtain ⟨d, hd⟩ := State.select_maps hs
    exact Or.inr ⟨i, d, rfl, hd, by simp only [hd.1]⟩

/-- What a byte write of the bus can do: nothing, or the write of the device that contains the address. -/
theorem busWrite_cases (a : Word) (v : Byte) (dbg : Bool) (s : State) :
    (s.Unmapped a ∧ busWrite a v dbg s = s) ∨
      ∃ i d, s.select a = some i ∧ s.Maps a i d ∧
        busWrite a v dbg s = devWrite d.kind i (a.toNat - d.range.base) v dbg s := by
  unfold busWrite
  cases hs : s.select a with
  | none => exact Or.inl ⟨State.select_eq_none_iff.mp hs, rfl⟩
  | some i =>
    obtain ⟨d, hd⟩ := State.select_maps hs
    exact Or.inr ⟨i, d, rfl, hd, by simp only [hd.1]⟩

theorem busRead_reaches (a : Word) (dbg : Bool) (s : State) : ∃ i, Reaches i s (busRead a dbg s).2 := by
  rcases busRead_cases a dbg s with ⟨-, h⟩ | ⟨i, d, -, -, h⟩ <;> rw [h]
  · exact ⟨0, Reaches.refl 0 s⟩
  · exact ⟨i, devRead_reaches _ _ _ _ _⟩

theorem busWrite_reaches (a : Word) (v : Byte) (dbg : Bool) (s : State) :
    ∃ i, Reaches i s (busWrite a v dbg s) := by
  rcases busWrite_cases a v dbg s with ⟨-, h⟩ | ⟨i, d, -, -, h⟩ <;> rw [h]
  · exact ⟨0, Reaches.refl 0 s⟩
  · exact ⟨i, devWrite_reaches _ _ _ _ _ _⟩

/-! ## The decoded display state through a device's handlers -/

theorem DecodeKept.refl (s : State) : DecodeKept s s := ⟨rfl, rfl, rfl⟩

theorem DecodeKept.trans {s t u : State} (h : DecodeKept s t) (h' : DecodeKept t u) : DecodeKept s u :=
  ⟨h'.1.trans h.1, h'.2.1.trans h.2.1, h'.2.2.trans h.2.2⟩

theorem DecodeKept.butWindow {s t : State} (h : DecodeKept s t) : DecodeKeptButWindow s t :=
  ⟨by rw [h.1], h.2⟩

theorem DecodeKeptButWindow.trans {s t u : State} (h : DecodeKeptButWindow s t) (h' : DecodeKeptButWindow t u) :
    DecodeKeptButWindow s u := by
  refine ⟨?_, h'.2.1.trans h.2.1, h'.2.2.trans h.2.2⟩
  have e := h.1
  rw [← h'.1] at e
  exact e

/-- What a handler of the i-th device is shown (46_command.md R367). -/
theorem State.handlerView_eq {s : State} {i : Nat} {d : Device} (h : s.devs[i]? = some d) :
    s.handlerView i =
      { ext := s.gpu.ext
        palette := s.gpu.palette
        epalette := s.gpu.epalette
        glyph := s.gpu.glyph
        dec := s.gpu.dec
        widthCounter := s.gpu.widthCounter
        backing := d.backing } := by
  simp [State.handlerView, h]

/-- No command handler changes the decoded display state (46_command.md R367). -/
theorem State.dispatchWith_decode (s : State) (i : Nat) (hs : Nat → HandlerView → HandlerResult) (op : Byte) :
    DecodeKept s (s.dispatchWith i hs op) := by
  unfold State.dispatchWith State.dispatchKnown State.runHandler
  split
  · split <;> exact ⟨rfl, rfl, rfl⟩
  · exact ⟨rfl, rfl, rfl⟩

/-- A normal write of a GPU byte above 0x01 keeps the decoded display state but for the window, and keeps the
window too above 0x02 (10_state.md R45, R46; 42_gpu_registers.md R235). -/
theorem gpuWrite_decode (i : Nat) {off : Nat} (h : 2 ≤ off) (v : Byte) (s : State) :
    DecodeKeptButWindow s (gpuWrite i off v s) ∧ (off ≠ 2 → DecodeKept s (gpuWrite i off v s)) := by
  have all : ∀ {t}, DecodeKept s t → DecodeKeptButWindow s t ∧ (off ≠ 2 → DecodeKept s t) :=
    fun k => ⟨k.butWindow, fun _ => k⟩
  unfold gpuWrite
  split
  case h_1 => omega
  case h_2 => omega
  case h_3 => exact ⟨⟨rfl, rfl, rfl⟩, fun k => absurd rfl k⟩
  case h_21 => exact all (State.dispatchWith_decode s i _ v)
  all_goals exact all ⟨rfl, rfl, rfl⟩

/-- So does a debug write, or a write at another device, wherever it falls. -/
theorem devWrite_decode (k : DeviceKind) (i off : Nat) (v : Byte) (dbg : Bool) (s : State)
    (h : k ≠ .gpu ∨ dbg = true) : DecodeKept s (devWrite k i off v dbg s) := by
  unfold devWrite
  cases dbg
  case true => exact ⟨rfl, rfl, rfl⟩
  case false =>
    rw [if_neg (by decide)]
    cases k
    case gpu => simp at h
    case sys =>
      dsimp only
      split_ifs <;> exact ⟨rfl, rfl, rfl⟩
    all_goals exact ⟨rfl, rfl, rfl⟩

/-- A read keeps the decoded display state. -/
theorem busRead_decode (a : Word) (dbg : Bool) (s : State) : DecodeKept s (busRead a dbg s).2 := by
  rcases busRead_cases a dbg s with ⟨-, h⟩ | ⟨i, d, -, -, h⟩ <;> rw [h]
  · exact DecodeKept.refl s
  · unfold devRead
    cases dbg
    case true => exact DecodeKept.refl s
    case false =>
      rw [if_neg (by decide)]
      cases d.kind
      case gpu =>
        unfold gpuRead
        dsimp only
        split <;> exact ⟨rfl, rfl, rfl⟩
      all_goals exact ⟨rfl, rfl, rfl⟩

/-- A normal byte write that misses every GPU's bytes 0x00 and 0x01 keeps the decoded display state but for the
window, and the window too where it misses byte 0x02. -/
theorem busWrite_decode {a : Word} {s : State} (h : ¬ s.AtGpuByte a 0x00 ∧ ¬ s.AtGpuByte a 0x01) (v : Byte) :
    DecodeKeptButWindow s (busWrite a v false s) ∧
      (¬ s.AtGpuByte a 0x02 → DecodeKept s (busWrite a v false s)) := by
  rcases busWrite_cases a v false s with ⟨-, e⟩ | ⟨i, d, -, hm, e⟩ <;> rw [e]
  · exact ⟨(DecodeKept.refl s).butWindow, fun _ => DecodeKept.refl s⟩
  · by_cases hk : d.kind = .gpu
    · have miss : ∀ n, ¬ s.AtGpuByte a n → a.toNat - d.range.base ≠ n := fun n hn e =>
        hn ⟨i, d, hm, hk, by have := hm.2.1; omega⟩
      have h0 := miss 0 h.1
      have h1 := miss 1 h.2
      rw [hk]
      obtain ⟨w, k⟩ := gpuWrite_decode i (off := a.toNat - d.range.base) (by omega) v s
      exact ⟨w, fun h2 => k (miss 2 h2)⟩
    · have k := devWrite_decode d.kind i (a.toNat - d.range.base) v false s (.inl hk)
      exact ⟨k.butWindow, fun _ => k⟩

/-! ## The layout invariant through a device's handlers -/

/-- Changing the GPU's internal state keeps the invariant where secondary memory stays canonical. -/
theorem State.Inv.ofGpu {s : State} (h : s.Inv) (g : GpuState)
    (hg : g.ext.wf = true ∧ g.ext.below extMemSize = true) : State.Inv { s with gpu := g } :=
  ⟨h.layout, h.bound, h.devices, hg⟩

theorem LayoutFrom.congr {a e : Nat} {l m : List Device} (h : LayoutFrom a l e)
    (hm : m.map (·.range) = l.map (·.range)) : LayoutFrom a m e := by
  induction l generalizing a m with
  | nil => rw [List.map_nil, List.map_eq_nil_iff] at hm; rw [hm]; exact h
  | cons c rest ih =>
    cases m with
    | nil => simp at hm
    | cons b tail =>
      simp only [List.map_cons, List.cons.injEq] at hm
      obtain ⟨hc, hr⟩ := h
      refine ⟨by rw [hm.1]; exact hc, ?_⟩
      rw [hm.1]
      exact ih hr hm.2

theorem SameDevices.ranges {s t : State} (h : SameDevices s t) :
    t.devs.map (·.range) = s.devs.map (·.range) := by
  have := congrArg (List.map Prod.snd) h
  simpa [List.map_map, Function.comp_def] using this

/-- Storing a byte inside a device's range keeps the invariant. -/
theorem State.Inv.setDevByte {s : State} (h : s.Inv) {i : Nat} {d : Device} (hd : s.devs[i]? = some d)
    {off : Nat} (ho : off < d.range.size) (v : Byte) : (s.setDevByte i off v).Inv := by
  refine ⟨h.layout.congr (State.setDevByte_sameDevices s i off v).ranges, h.bound, fun e he => ?_, h.ext⟩
  obtain ⟨j, hj⟩ := List.getElem?_of_mem he
  rw [State.setDevByte_getElem?] at hj
  by_cases hij : i = j
  · subst hij
    rw [if_pos rfl, hd] at hj
    simp only [Option.map_some, Option.some.injEq] at hj
    exact hj ▸ (h.sound hd).setByte ho v
  · rw [if_neg hij] at hj
    exact h.sound hj

/-- The invariant, with a GPU at an index: what the GPU's handlers keep. -/
def InvGpu (i : Nat) (s : State) : Prop := s.Inv ∧ ∃ d, s.devs[i]? = some d ∧ d.kind = .gpu

theorem InvGpu.setDevByte {i : Nat} {s : State} (h : InvGpu i s) {off : Nat} (ho : off < gpuBlockSize)
    (v : Byte) : InvGpu i (s.setDevByte i off v) := by
  obtain ⟨hi, d, hd, hk⟩ := h
  have := (hi.sound hd).2.2.1 hk
  exact ⟨hi.setDevByte hd (by omega) v, _, State.setDevByte_getElem?_self hd off v, hk⟩

theorem InvGpu.setDevWord {i : Nat} {s : State} (h : InvGpu i s) {off : Nat} (ho : off + 1 < gpuBlockSize)
    (w : Word) : InvGpu i (s.setDevWord i off w) :=
  (h.setDevByte (by omega) _).setDevByte ho _

theorem InvGpu.ofGpu {i : Nat} {s : State} (h : InvGpu i s) (g : GpuState)
    (hg : g.ext.wf = true ∧ g.ext.below extMemSize = true) : InvGpu i { s with gpu := g } :=
  ⟨h.1.ofGpu g hg, h.2⟩

theorem InvGpu.markDirty {i : Nat} {s : State} (h : InvGpu i s) : InvGpu i s.markDirty :=
  ⟨⟨h.1.layout, h.1.bound, h.1.devices, h.1.ext⟩, h.2⟩

theorem InvGpu.runPass {i : Nat} {s : State} (h : InvGpu i s) (m r : Byte) : InvGpu i (s.runPass i m r) := by
  have revert {t : State} (ht : InvGpu i t) : InvGpu i (t.revertMode i) :=
    (ht.setDevByte (by decide) _).setDevByte (by decide) _
  unfold State.runPass
  split
  · exact ((((h.setDevByte (by decide) _).setDevByte (by decide) _).setDevWord (by decide) _).ofGpu _ h.1.ext)
  · exact revert h
  · exact revert (h.setDevByte (by decide) _)

theorem InvGpu.blitAdvance {i : Nat} {s : State} (h : InvGpu i s) : InvGpu i (s.blitAdvance i) :=
  InvGpu.setDevWord (off := regBlitAddr)
    (h.ofGpu { s.gpu with widthCounter := nextCounter (s.blitWidth i) s.gpu.widthCounter } h.1.ext)
    (by decide) _

theorem InvGpu.dispatchWith {i : Nat} {s : State} (h : InvGpu i s)
    (hs : Nat → HandlerView → HandlerResult) (op : Byte) : InvGpu i (s.dispatchWith i hs op) := by
  unfold State.dispatchWith
  split
  · refine InvGpu.setDevByte ?_ (by decide) _
    unfold State.runHandler
    split
    · exact (((h.ofGpu _ ⟨Memory.wf_ofCells _ _, Memory.below_ofCells _ _⟩).setDevWord (by decide) _).setDevWord
        (by decide) _).setDevWord (by decide) _
    · exact h.setDevByte (by decide) _
  · exact (h.setDevByte (by decide) _).setDevByte (by decide) _

theorem InvGpu.gpuWrite {i : Nat} {s : State} (h : InvGpu i s) {off : Nat} {d : Device}
    (hd : s.devs[i]? = some d) (ho : off < d.range.size) (v : Byte) : InvGpu i (gpuWrite i off v s) := by
  unfold Machine.gpuWrite
  split
  case h_1 => exact (h.setDevByte (off := regMode) (by decide) v).markDirty.runPass _ _
  case h_2 => exact (h.setDevByte (off := regRes) (by decide) v).markDirty.runPass _ _
  case h_3 =>
    have g := (h.setDevByte (off := regOptions) (by decide) v).markDirty
    exact g.ofGpu _ g.1.ext
  case h_18 =>
    have g := h.setDevByte (off := 0x18) (by decide) v
    exact g.ofGpu _ g.1.ext
  case h_19 =>
    have g := h.setDevByte (off := 0x19) (by decide) v
    exact g.ofGpu _ g.1.ext
  case h_20 =>
    exact (h.ofGpu _ ⟨Memory.wf_write _ _ _ h.1.ext.1, Memory.below_write _ _ _ _
      (Nat.mod_lt _ (by decide)) h.1.ext.2⟩).blitAdvance
  case h_21 => exact h.dispatchWith _ v
  case h_23 =>
    obtain ⟨e, he, hk⟩ := h.2
    obtain rfl : d = e := Option.some.inj (hd.symm.trans he)
    exact ⟨h.1.setDevByte hd ho v, _, State.setDevByte_getElem?_self hd off v, hk⟩
  all_goals first | exact h | exact h.ofGpu _ h.1.ext

/-- A byte write inside a device's range keeps the invariant. -/
theorem State.Inv.devWrite {s : State} (h : s.Inv) {i off : Nat} {d : Device} (hd : s.devs[i]? = some d)
    (ho : off < d.range.size) (v : Byte) (dbg : Bool) : (devWrite d.kind i off v dbg s).Inv := by
  unfold Machine.devWrite
  cases dbg
  case true => exact h.setDevByte hd ho v
  case false =>
    rw [if_neg (by decide)]
    cases hk : d.kind
    case gpu => exact (InvGpu.gpuWrite ⟨h, d, hd, hk⟩ hd ho v).1
    case sys =>
      have := (h.sound hd).2.2.2 hk
      dsimp only
      split_ifs
      · exact h.setDevByte hd (by rw [sysBlockSize] at this; omega) _
      · exact h.setDevByte hd ho _
    case rom => exact h
    case other => exact h
    all_goals exact h.setDevByte hd ho v

theorem State.Inv.devRead {s : State} (h : s.Inv) {i off : Nat} {d : Device} (hd : s.devs[i]? = some d)
    (dbg : Bool) : (devRead d.kind i off dbg s).2.Inv := by
  unfold Machine.devRead
  cases dbg
  case true => exact h
  case false =>
    rw [if_neg (by decide)]
    cases hk : d.kind
    case gpu =>
      dsimp only
      unfold gpuRead
      split
      case h_13 => exact (InvGpu.blitAdvance ⟨h, d, hd, hk⟩).1
      all_goals exact h
    case other => exact ⟨h.layout, h.bound, h.devices, h.ext⟩
    all_goals exact h

theorem State.Inv.busWrite {s : State} (h : s.Inv) (a : Word) (v : Byte) (dbg : Bool) :
    (busWrite a v dbg s).Inv := by
  rcases busWrite_cases a v dbg s with ⟨-, e⟩ | ⟨i, d, -, hm, e⟩ <;> rw [e]
  · exact h
  · exact h.devWrite hm.1 (by have := hm.2; omega) v dbg

theorem State.Inv.busRead {s : State} (h : s.Inv) (a : Word) (dbg : Bool) : (busRead a dbg s).2.Inv := by
  rcases busRead_cases a dbg s with ⟨-, e⟩ | ⟨i, d, -, hm, e⟩ <;> rw [e]
  · exact h
  · exact h.devRead hm.1 dbg

end Sys2Proof.Machine
end

