-- ==== Sys2Proof/Laws/Interleave.lean ====
section
/-! SUPPORT. What the atomic steps of an operation can do, and when it is admitted. -/

namespace Sys2Proof.Machine

/-! ## Admission -/

@[simp] theorem Admission.construct_holds (p : Phase) (r : Bool) :
    Admission.construct.holds p r = true ↔ p = .construct := by simp [Admission.holds]
@[simp] theorem Admission.ready_holds (p : Phase) (r : Bool) :
    Admission.ready.holds p r = true ↔ p = .ready := by simp [Admission.holds]
@[simp] theorem Admission.loop_holds (p : Phase) (r : Bool) :
    Admission.loop.holds p r = true ↔ p = .run ∧ r = true := by simp [Admission.holds]
@[simp] theorem Admission.run_holds (p : Phase) (r : Bool) :
    Admission.run.holds p r = true ↔ p = .run := by simp [Admission.holds]
@[simp] theorem Admission.stopped_holds (p : Phase) (r : Bool) :
    Admission.stopped.holds p r = true ↔ (p = .ready ∨ p = .run) ∧ r = false := by simp [Admission.holds]
@[simp] theorem Admission.busOrReady_holds (p : Phase) (r : Bool) :
    Admission.busOrReady.holds p r = true ↔ p = .ready ∨ p = .run := by simp [Admission.holds]

/-- The admission table as the machine tests it and as claims state it (70_reset_and_hazards.md R447). -/
theorem State.admits_iff (s : State) (i : Instr) :
    s.Admits i ↔ s.fault = none ∧ (admission i).holds s.phase s.running = true := by
  refine and_congr_right fun _ => ?_
  cases i
  all_goals first
    | exact (Admission.busOrReady_holds _ _).symm
    | exact (Admission.construct_holds _ _).symm
    | exact (Admission.ready_holds _ _).symm
    | exact (Admission.loop_holds _ _).symm
    | exact (Admission.run_holds _ _).symm
    | exact (Admission.stopped_holds _ _).symm

@[simp] theorem Admission.construct_goesOn (p : Phase) (r : Bool) :
    Admission.construct.goesOn p r = true ↔ False := by simp [Admission.goesOn]
@[simp] theorem Admission.ready_goesOn (p : Phase) (r : Bool) :
    Admission.ready.goesOn p r = true ↔ p = .ready := by simp [Admission.goesOn, Admission.holds]
@[simp] theorem Admission.loop_goesOn (p : Phase) (r : Bool) :
    Admission.loop.goesOn p r = true ↔ p = .run := by simp [Admission.goesOn]
@[simp] theorem Admission.run_goesOn (p : Phase) (r : Bool) :
    Admission.run.goesOn p r = true ↔ p = .run := by simp [Admission.goesOn, Admission.holds]
@[simp] theorem Admission.stopped_goesOn (p : Phase) (r : Bool) :
    Admission.stopped.goesOn p r = true ↔ (p = .ready ∨ p = .run) ∧ r = false := by simp [Admission.goesOn, Admission.holds]
@[simp] theorem Admission.busOrReady_goesOn (p : Phase) (r : Bool) :
    Admission.busOrReady.goesOn p r = true ↔ p = .ready ∨ p = .run := by simp [Admission.goesOn, Admission.holds]

/-- Where an operation goes on, as the machine tests it and as claims state it (R447; 40_bus.md R180). -/
theorem State.goesOn_iff (s : State) (i : Instr) :
    s.GoesOn i ↔ s.fault = none ∧ (admission i).goesOn s.phase s.running = true := by
  refine and_congr_right fun _ => ?_
  cases i
  all_goals first
    | exact (Admission.busOrReady_goesOn _ _).symm
    | exact (Admission.construct_goesOn _ _).symm
    | exact (Admission.ready_goesOn _ _).symm
    | exact (Admission.loop_goesOn _ _).symm
    | exact (Admission.run_goesOn _ _).symm
    | exact (Admission.stopped_goesOn _ _).symm

/-! ## The agents -/

theorem agentOf_clock (i : Instr) : agentOf i = .clock ↔ i = .tick := by
  cases i
  all_goals first
    | exact iff_of_true rfl rfl
    | exact iff_of_false (fun h => Agent.noConfusion h) (fun h => Instr.noConfusion h)

theorem agentOf_shutdown (i : Instr) : agentOf i = .shutdown ↔ i = .shutdown := by
  cases i
  all_goals first
    | exact iff_of_true rfl rfl
    | exact iff_of_false (fun h => Agent.noConfusion h) (fun h => Instr.noConfusion h)

theorem agentOf_host (i : Instr) : agentOf i = .host ↔ IsHostOperation i := by
  cases i
  all_goals first
    | exact iff_of_true rfl trivial
    | exact iff_of_false (fun h => Agent.noConfusion h) (fun h => h)

theorem sameAgent_iff (i j : Instr) : SameAgent i j ↔ agentOf i = agentOf j := by
  rw [SameAgent, ← agentOf_clock, ← agentOf_clock, ← agentOf_host, ← agentOf_host, ← agentOf_shutdown,
    ← agentOf_shutdown]
  cases agentOf i <;> cases agentOf j <;> decide

/-- What goes before an operation, as the machine tests it and as claims state it (20_memory.md R100). -/
theorem State.goesBefore_iff (s : State) (o : Ongoing) (i : Instr) : s.GoesBefore o i ↔ s.holdsUp o i = true := by
  simp only [State.GoesBefore, State.holdsUp, sameAgent_iff, ← agentOf_clock, ← agentOf_host, Bool.or_eq_true,
    Bool.and_eq_true, beq_iff_eq, Bool.not_eq_true', and_assoc]

/-- Nothing holds an operation up where none of the entries does. -/
theorem State.holder_eq_none (s : State) (i : Instr) (l : List Entry) :
    s.holder i l = none ↔ ∀ o, Entry.resume o ∈ l → s.holdsUp o i = false := by
  induction l with
  | nil => simp [State.holder]
  | cons e rest ih =>
    cases e with
    | request r => simp [State.holder, ih]
    | resume o =>
      cases h : s.holdsUp o i with
      | true => simp [State.holder, h]
      | false => simp [State.holder, h, ih]

/-- What holds an operation up is the first entry that does, and every other entry stays in its order. -/
theorem State.holder_eq_some {s : State} {i : Instr} {l : List Entry} {o : Ongoing} {q : List Entry}
    (h : s.holder i l = some (o, q)) :
    ∃ pre post, l = pre ++ .resume o :: post ∧ q = pre ++ post ∧ s.holdsUp o i = true ∧
      ∀ x, Entry.resume x ∈ pre → s.holdsUp x i = false := by
  induction l generalizing q with
  | nil => simp [State.holder] at h
  | cons e rest ih =>
    cases e with
    | request r =>
      simp only [State.holder, Option.map_eq_some_iff] at h
      obtain ⟨⟨o', q'⟩, h, hq⟩ := h
      obtain ⟨rfl, rfl⟩ := Prod.mk.inj hq
      obtain ⟨pre, post, rfl, rfl, hu, hp⟩ := ih h
      exact ⟨.request r :: pre, post, rfl, rfl, hu, by simpa using hp⟩
    | resume x =>
      cases hx : s.holdsUp x i with
      | true =>
        simp only [State.holder, hx, if_true, Option.some.injEq, Prod.mk.injEq] at h
        obtain ⟨rfl, rfl⟩ := h
        exact ⟨[], rest, rfl, rfl, hx, by simp⟩
      | false =>
        simp only [State.holder, hx, Bool.false_eq_true, if_false, Option.map_eq_some_iff] at h
        obtain ⟨⟨o', q'⟩, h, hq⟩ := h
        obtain ⟨rfl, rfl⟩ := Prod.mk.inj hq
        obtain ⟨pre, post, rfl, rfl, hu, hp⟩ := ih h
        exact ⟨.resume x :: pre, post, rfl, rfl, hu, by
          intro y hy
          rcases List.mem_cons.mp hy with he | hm
          · cases he; exact hx
          · exact hp y hm⟩

/-- The first operation in progress that holds an operation up is found. -/
theorem State.holder_append {s : State} {i : Instr} {o : Ongoing} {pre post : List Entry}
    (hu : s.holdsUp o i = true) (hp : ∀ x, Entry.resume x ∈ pre → s.holdsUp x i = false) :
    s.holder i (pre ++ .resume o :: post) = some (o, pre ++ post) := by
  induction pre with
  | nil => simp [State.holder, hu]
  | cons e rest ih =>
    have ih := ih fun x hx => hp x (List.mem_cons_of_mem _ hx)
    cases e with
    | request r => simp [State.holder, ih]
    | resume x => simp [State.holder, ih, hp x List.mem_cons_self]

/-- The next entries are those of the inbox, in some order. -/
theorem State.nextEntries_perm (s : State) : s.nextEntries.Perm s.inbox := by
  unfold State.nextEntries
  split
  · next r rest hin =>
    rw [hin]
    split
    · split
      · next p hp =>
        obtain ⟨pre, post, rfl, hq, -, -⟩ := State.holder_eq_some hp
        rw [hq]
        exact (List.Perm.swap _ _ _).trans (List.Perm.cons _ List.perm_middle.symm)
      · exact List.Perm.refl _
    · exact List.Perm.refl _
  · exact List.Perm.refl _

/-- An operation in progress at the head of the inbox takes the next step. -/
theorem State.nextEntries_resume {s : State} {o : Ongoing} {rest : List Entry} (h : s.inbox = .resume o :: rest) :
    s.nextEntries = .resume o :: rest := by
  simp [State.nextEntries, h]

/-- A request at the head of the inbox takes the next step where nothing goes before it. -/
theorem State.nextEntries_free {s : State} {r : Request} {rest : List Entry} {i : Instr}
    (h : s.inbox = .request r :: rest) (hd : s.decodeRequest r = .ok i) (hf : s.Free i) :
    s.nextEntries = .request r :: rest := by
  have hn : s.holder i rest = none := (s.holder_eq_none i rest).mpr fun o ho =>
    Bool.eq_false_iff.mpr fun hu => hf o (h ▸ List.mem_cons_of_mem _ ho) ((s.goesBefore_iff o i).mpr hu)
  simp [State.nextEntries, h, hd, hn]

/-! ## Going on after a fatal error -/

theorem State.unlessFatal_none {s : State} (h : s.fault = none) (f : State → State) : s.unlessFatal f = f s := by
  simp [State.unlessFatal, h]

theorem State.unlessFatal_some {s : State} {r : FatalReason} (h : s.fault = some r) (f : State → State) :
    s.unlessFatal f = s := by
  simp [State.unlessFatal, h]

/-- What holds of a state, and of it after the rest of its operation, holds after `unlessFatal`. -/
theorem State.unlessFatal_induction {p : State → Prop} {s : State} {f : State → State} (h : p s) (hf : p (f s)) :
    p (s.unlessFatal f) := by
  unfold State.unlessFatal
  split
  · exact h
  · exact hf

/-! ## Which operations are taken apart -/

@[simp] theorem State.atomicSteps_rdw (s : State) (a : Word) :
    s.atomicSteps (.rdw a) = some (readSteps a false) := rfl
@[simp] theorem State.atomicSteps_wrw (s : State) (a w : Word) :
    s.atomicSteps (.wrw a w) = some (writeSteps a w false) := rfl
@[simp] theorem State.atomicSteps_rdwD (s : State) (a : Word) :
    s.atomicSteps (.rdwD a) = some (readSteps a true) := rfl
@[simp] theorem State.atomicSteps_wrwD (s : State) (a w : Word) :
    s.atomicSteps (.wrwD a w) = some (writeSteps a w true) := rfl
@[simp] theorem State.atomicSteps_quit (s : State) :
    s.atomicSteps .quit = some (s.fanSteps .quit ++ [.close .finish]) := rfl
@[simp] theorem State.atomicSteps_activate (s : State) :
    s.atomicSteps .activate = some (s.fanSteps .activate ++ [.close .enterRun]) := rfl
@[simp] theorem State.atomicSteps_deactivate (s : State) :
    s.atomicSteps .deactivate = some (s.fanSteps .deactivate) := rfl
@[simp] theorem State.atomicSteps_event (s : State) :
    s.atomicSteps .event = some (s.fanSteps (.event s.beside.event)) := rfl
@[simp] theorem State.atomicSteps_update (s : State) (dt : BitVec 17) :
    s.atomicSteps (.update dt) = some (s.rebuildSteps ++ s.fanSteps (.update dt)) := rfl
@[simp] theorem State.atomicSteps_render (s : State) : s.atomicSteps .render = some (s.fanSteps .render) := rfl
@[simp] theorem State.atomicSteps_tick (s : State) :
    s.atomicSteps .tick =
      some (s.beside.cpu.flatMap CpuTransaction.steps ++ [.close (.interval s.beside.interval)]) := rfl
@[simp] theorem State.atomicSteps_load (s : State) :
    s.atomicSteps .load = some (s.textWrites.map (fun w => .write w.1 w.2 true)) := rfl

/-! ## Runs of atomic steps -/

@[simp] theorem runSteps_nil (h : Byte) (s : State) : runSteps [] h s = s := rfl

theorem runSteps_cons (a : AtomicStep) (rest : List AtomicStep) (h : Byte) (s : State) :
    runSteps (a :: rest) h s = (a.run h s).2.unlessFatal (runSteps rest (a.run h s).1) := rfl

/-- What every atomic step keeps, a run of them keeps. -/
theorem runSteps_induction {p : State → Prop} (hp : ∀ (a : AtomicStep) (h : Byte) (s : State), p s → p (a.run h s).2)
    (steps : List AtomicStep) (h : Byte) (s : State) (hs : p s) : p (runSteps steps h s) := by
  induction steps generalizing h s with
  | nil => exact hs
  | cons a rest ih => exact State.unlessFatal_induction (hp a h s hs) (ih _ _ (hp a h s hs))

/-- Runs one after the other are one run, where no fatal error is raised. -/
theorem runSteps_append (x y : List AtomicStep) (h : Byte) (s : State) (hx : (runSteps x h s).fault = none) :
    ∃ k, runSteps (x ++ y) h s = runSteps y k (runSteps x h s) := by
  induction x generalizing h s with
  | nil => exact ⟨h, rfl⟩
  | cons a rest ih =>
    rw [runSteps_cons] at hx
    cases hf : (a.run h s).2.fault with
    | some r => simp [State.unlessFatal_some hf, hf] at hx
    | none =>
      rw [State.unlessFatal_none hf] at hx
      obtain ⟨k, hk⟩ := ih _ _ hx
      exact ⟨k, by rw [List.cons_append, runSteps_cons, runSteps_cons, State.unlessFatal_none hf,
        State.unlessFatal_none hf, hk]⟩

/-! ## What one atomic step can do -/

/-- A callback changes the frame or raises a surface failure, and nothing else (41_device.md R210). -/
theorem Callback.run_cases (c : Callback) (k : DeviceKind) (i : Nat) (s : State) :
    c.run k i s = s ∨ c.run k i s = s.raise .surfaceFailure ∨ c.run k i s = { s with frame := s.composed } := by
  cases c <;> cases k <;>
    simp only [Callback.run, onQuit, onActivate, onDeactivate, onUpdate, onEvent, onRender, true_or, or_true]
  split
  · exact .inl rfl
  · exact .inr (.inl rfl)

/-- A callback changes no device, no GPU state and no parameter. -/
theorem Callback.run_keeps (c : Callback) (k : DeviceKind) (i : Nat) (s : State) :
    (c.run k i s).cfg = s.cfg ∧ (c.run k i s).devs = s.devs ∧ (c.run k i s).gpu = s.gpu ∧
      (c.run k i s).nextFree = s.nextFree ∧ (c.run k i s).phase = s.phase := by
  rcases c.run_cases k i s with h | h | h <;> rw [h] <;> exact ⟨rfl, rfl, rfl, rfl, rfl⟩

/-- A closing assignment changes no device, no GPU state and no parameter. -/
theorem Closing.run_keeps (c : Closing) (s : State) :
    (c.run s).cfg = s.cfg ∧ (c.run s).devs = s.devs ∧ (c.run s).gpu = s.gpu ∧
      (c.run s).nextFree = s.nextFree ∧ (c.run s).fault = s.fault := by
  cases c
  · simp only [Closing.run, State.enterRun]
    split <;> exact ⟨rfl, rfl, rfl, rfl, rfl⟩
  all_goals exact ⟨rfl, rfl, rfl, rfl, rfl⟩

/-- An atomic step changes no parameter. -/
theorem AtomicStep.run_cfg (a : AtomicStep) (h : Byte) (s : State) : (a.run h s).2.cfg = s.cfg := by
  cases a with
  | read a dbg => exact (busRead_reaches a dbg s).elim fun _ r => r.cfg
  | readHigh a dbg => exact (busRead_reaches a dbg s).elim fun _ r => r.cfg
  | readLow a dbg => exact (busRead_reaches a dbg s).elim fun _ r => r.cfg
  | write a v dbg => exact (busWrite_reaches a v dbg s).elim fun _ r => r.cfg
  | callback c k i => exact (c.run_keeps k i s).1
  | close c => exact (c.run_keeps s).1

/-- An atomic step keeps the bus layout and the canonical forms. -/
theorem AtomicStep.run_inv (a : AtomicStep) (h : Byte) (s : State) (hs : s.Inv) : (a.run h s).2.Inv := by
  have same : ∀ t : State, t.devs = s.devs → t.nextFree = s.nextFree → t.gpu = s.gpu → t.Inv := by
    intro t hd hn hg
    exact ⟨by rw [hd, hn]; exact hs.layout, by rw [hn]; exact hs.bound, by rw [hd]; exact hs.devices,
      by rw [hg]; exact hs.ext⟩
  cases a with
  | read a dbg =>
    have := hs.busRead a dbg
    exact ⟨this.layout, this.bound, this.devices, this.ext⟩
  | readHigh a dbg => exact hs.busRead a dbg
  | readLow a dbg =>
    have := hs.busRead a dbg
    exact ⟨this.layout, this.bound, this.devices, this.ext⟩
  | write a v dbg => exact hs.busWrite a v dbg
  | callback c k i => exact same _ (c.run_keeps k i s).2.1 (c.run_keeps k i s).2.2.2.1 (c.run_keeps k i s).2.2.1
  | close c => exact same _ (c.run_keeps s).2.1 (c.run_keeps s).2.2.2.1 (c.run_keeps s).2.2.1

/-! ## What the next step of an operation, and a step of the block, can do -/

/-- What every atomic step and a change of the inbox keep, the next step of an operation keeps. -/
theorem State.advance_induction {p : State → Prop}
    (hp : ∀ (a : AtomicStep) (h : Byte) (s : State), p s → p (a.run h s).2)
    (hi : ∀ (s : State) (q : List Entry), p s → p { s with inbox := q }) (s : State) (o : Ongoing) (hs : p s) :
    p (s.advance o) := by
  unfold State.advance
  split
  · exact runSteps_induction hp _ _ _ hs
  · exact hs
  · refine State.unlessFatal_induction (hp _ _ _ hs) ?_
    unfold State.postpone
    split
    · exact hp _ _ _ hs
    · exact hi _ _ (hp _ _ _ hs)

/-- A step of the block runs an instruction, begins an operation in steps, or goes on with one. -/
theorem step_cases {s t : State} (h : step s = .next t) :
    (∃ r rest i, s.nextEntries = .request r :: rest ∧ s.decodeRequest r = .ok i ∧
      exec i (s.latch r rest) = .next t) ∨
    (∃ r rest i o, s.nextEntries = .request r :: rest ∧ s.decodeRequest r = .ok i ∧
      (s.latch r rest).divided r i = some o ∧ (s.latch r rest).Admits i ∧ t = (s.latch r rest).advance o) ∨
    (∃ o rest, s.nextEntries = .resume o :: rest ∧ s.GoesOn o.op ∧ t = (s.relatch o rest).advance o) := by
  unfold step at h
  split at h
  · cases h
  · next o rest hin =>
    obtain ⟨hf, hb, ht⟩ := State.admit_eq_next.mp h
    exact .inr (.inr ⟨o, rest, hin, (s.goesOn_iff _).mpr ⟨hf, hb⟩, (Host.Outcome.next.inj ht).symm⟩)
  · next r rest hin =>
    split at h
    · cases h
    · next i hd =>
      split at h
      · next o ho =>
        obtain ⟨hf, hb, ht⟩ := State.admit_eq_next.mp h
        exact .inr (.inl ⟨r, rest, i, o, hin, hd, ho, (State.admits_iff _ _).mpr ⟨hf, hb⟩,
          (Host.Outcome.next.inj ht).symm⟩)
      · exact .inl ⟨r, rest, i, hin, hd, h⟩

end Sys2Proof.Machine
end

