-- ==== Sys2Proof/Laws/Loader.lean ====
section
/-! SUPPORT. What the loader reads from a text, as the machine parses it and as claims state it
(47_boot_image.md), and what its byte writes leave. -/

namespace Sys2Proof.Machine

/-! ## Record text (47_boot_image.md R387) -/

/-- A hexadecimal digit, as the machine reads it and as claims state it. -/
theorem hexDigit_eq_some {c : Byte} {n : Nat} : hexDigit c = some n ↔ HexDigit c n := by
  simp only [hexDigit, HexDigit]
  split
  · simp only [Option.some.injEq]; omega
  · split
    · simp only [Option.some.injEq]; omega
    · split
      · simp only [Option.some.injEq]; omega
      · simp only [reduceCtorEq, false_iff]; omega

theorem HexDigit.lt {c : Byte} {n : Nat} (h : HexDigit c n) : n < 16 := by
  rcases h with h | h <;> omega

/-- A byte from its two digits. -/
theorem byte_of_digits {x y : Nat} (hx : x < 16) (hy : y < 16) (v : Byte) :
    BitVec.ofNat 8 (x * 16 + y) = v ↔ x = v.toNat / 16 ∧ y = v.toNat % 16 := by
  rw [← BitVec.toNat_inj, BitVec.toNat_ofNat]
  omega

/-- The bytes that characters spell. -/
theorem hexBytes_eq_some {text bytes : List Byte} : hexBytes text = some bytes ↔ SpellsBytes text bytes := by
  match text, bytes with
  | [], [] => simp [hexBytes, SpellsBytes]
  | [], _ :: _ => simp [hexBytes, SpellsBytes]
  | [_], bs => cases bs <;> simp [hexBytes, SpellsBytes]
  | a :: b :: rest, [] => 
    simp only [hexBytes, SpellsBytes, iff_false]
    split <;> simp
  | a :: b :: rest, v :: bs =>
    simp only [hexBytes, SpellsBytes, ← hexDigit_eq_some, ← hexBytes_eq_some (text := rest)]
    split
    · next x y l hx hy hl =>
      rw [hx, hy, hl, Option.some.injEq, List.cons.injEq,
        byte_of_digits (hexDigit_eq_some.mp hx).lt (hexDigit_eq_some.mp hy).lt, and_assoc]
      simp
    · next hn =>
      simp only [reduceCtorEq, false_iff]
      rintro ⟨hx, hy, hl⟩
      exact hn _ _ _ hx hy hl

/-! A word and its bytes (20_memory.md R84). -/

theorem hi8_be16 (hi lo : Byte) : hi8 (be16 hi lo) = hi := by
  simp only [be16, hi8]
  exact BitVec.extractLsb'_append_eq_left

theorem lo8_be16 (hi lo : Byte) : lo8 (be16 hi lo) = lo := by
  simp only [be16, lo8]
  exact BitVec.extractLsb'_append_eq_right

theorem be16_hi8_lo8 (w : Word) : be16 (hi8 w) (lo8 w) = w := by
  simp only [be16, hi8, lo8]
  rw [BitVec.extractLsb'_append_extractLsb'_eq_extractLsb' (by omega)]
  simp

/-- The record that bytes are. -/
theorem recordOfBytes_eq_some {bytes : List Byte} {r : Record} :
    recordOfBytes bytes = some r ↔ r.data.length < 256 ∧ ∃ check : Byte,
      bytes = BitVec.ofNat 8 r.data.length :: hi8 r.addr :: lo8 r.addr :: r.type :: r.data ++ [check] := by
  constructor
  · intro h
    unfold recordOfBytes at h
    split at h
    · next len hi lo type rest =>
      split at h
      · next hl =>
        obtain rfl := Option.some.inj h
        obtain rfl | ⟨data, check, rfl⟩ := List.eq_nil_or_concat rest
        · simp at hl
        · have hd : data.length = len.toNat := by simpa using hl
          have := len.isLt
          refine ⟨by simp [← hd]; omega, check, ?_⟩
          simp [← hd, List.take_left', hi8_be16, lo8_be16]
          simp [hd]
      · cases h
    · cases h
  · rintro ⟨hl, check, rfl⟩
    have h8 : (BitVec.ofNat 8 r.data.length).toNat = r.data.length := by
      rw [BitVec.toNat_ofNat]; omega
    simp [recordOfBytes, h8, be16_hi8_lo8]

/-- The record that a line spells. -/
theorem parseRecord_eq_some {line : List Byte} {r : Record} :
    parseRecord line = some r ↔ SpellsRecord line r.addr r.type r.data := by
  constructor
  · intro h
    unfold parseRecord at h
    split at h
    · next digits =>
      split at h
      · next bytes hb =>
        obtain ⟨hl, check, rfl⟩ := recordOfBytes_eq_some.mp h
        exact ⟨hl, digits, check, rfl, hexBytes_eq_some.mp hb⟩
      · cases h
    · cases h
  · rintro ⟨hl, digits, check, rfl, hs⟩
    show (match hexBytes digits with | some bytes => recordOfBytes bytes | none => none) = some r
    rw [hexBytes_eq_some.mpr hs]
    exact recordOfBytes_eq_some.mpr ⟨hl, check, rfl⟩

theorem SpellsRecord.parse {line data : List Byte} {a : Word} {type : Byte} (h : SpellsRecord line a type data) :
    parseRecord line = some { addr := a, type := type, data := data } := parseRecord_eq_some.mpr h

/-! ## Lines -/

/-- The line that an LF ends: its characters, but for a CR at its end. -/
theorem splitLines_lf (cur rest : List Byte) :
    splitLines cur (0x0A :: rest) =
      (if cur.head? = some 0x0D then cur.tail.reverse else cur.reverse) :: splitLines [] rest := by
  match cur with
  | [] => rfl
  | c :: l =>
    by_cases hc : c = 0x0D
    · subst hc; rfl
    · rw [splitLines.eq_def, if_neg (by simpa using hc)]
      simp only [if_true]
      split
      · next e => exact absurd (List.cons.inj e).1 hc
      · rfl

theorem splitLines_char (cur rest : List Byte) {c : Byte} (h : c ≠ 0x0A) :
    splitLines cur (c :: rest) = splitLines (c :: cur) rest := by
  rw [splitLines.eq_def]
  exact if_neg h

/-- The characters before the next LF join the current line. -/
theorem splitLines_append (cur : List Byte) {line : List Byte} (h : 0x0A ∉ line) (rest : List Byte) :
    splitLines cur (line ++ rest) = splitLines (line.reverse ++ cur) rest := by
  induction line generalizing cur with
  | nil => rfl
  | cons c l ih =>
    simp only [List.mem_cons, not_or] at h
    rw [List.cons_append, splitLines_char _ _ (Ne.symm h.1), ih _ h.2]
    simp

/-- The last line, which has no line end. -/
theorem splitLines_last {line : List Byte} (h : 0x0A ∉ line) : splitLines [] line = [line] := by
  have := splitLines_append [] h []
  simpa [splitLines] using this

/-- A line with its line end is the first line of a text. -/
theorem EndedLine.splitLines {line part : List Byte} (h : EndedLine line part) (rest : List Byte) :
    splitLines [] (part ++ rest) = line :: splitLines [] rest := by
  obtain ⟨hn, ⟨rfl, hl⟩ | rfl⟩ := h
  · rw [List.append_assoc, splitLines_append [] hn, List.singleton_append, splitLines_lf]
    rw [List.append_nil, List.head?_reverse, if_neg hl, List.reverse_reverse]
  · rw [show line ++ [0x0D, 0x0A] ++ rest = (line ++ [0x0D]) ++ 0x0A :: rest by simp,
      splitLines_append [] (by simpa using hn), splitLines_lf]
    simp

/-! ## The byte writes of a text -/

/-- What a line makes the loader do (R381 to R385). -/
theorem loadWrites_none {line : List Byte} (h : parseRecord line = none) (rest : List (List Byte)) :
    loadWrites (line :: rest) = loadWrites rest := by
  simp only [loadWrites, h]

theorem loadWrites_some {line : List Byte} {r : Record} (h : parseRecord line = some r) (rest : List (List Byte)) :
    loadWrites (line :: rest) = if r.type = 0x00 then recordWrites r.addr r.data ++ loadWrites rest
      else if r.type = 0x01 then [] else loadWrites rest := by
  simp only [loadWrites, h]

/-- A line that is skipped writes nothing, and the loader goes on. -/
theorem SkippedLine.loadWrites {line : List Byte} (h : SkippedLine line) (rest : List (List Byte)) :
    loadWrites (line :: rest) = loadWrites rest := by
  cases hr : parseRecord line with
  | none => exact loadWrites_none hr rest
  | some r =>
    have := h _ _ _ (parseRecord_eq_some.mp hr)
    rw [loadWrites_some hr, if_neg (by intro e; simp [e] at this), if_neg (by intro e; simp [e] at this)]

theorem SkippedText.loadWrites {before : List Byte} (h : SkippedText before) (rest : List Byte) :
    loadWrites (splitLines [] (before ++ rest)) = loadWrites (splitLines [] rest) := by
  obtain ⟨parts, rfl, hp⟩ := h
  induction parts with
  | nil => rfl
  | cons part ps ih =>
    obtain ⟨line, he, hs⟩ := hp part List.mem_cons_self
    rw [List.flatten_cons, List.append_assoc, he.splitLines, hs.loadWrites,
      ih fun q hq => hp q (List.mem_cons_of_mem _ hq)]

/-- The byte writes of a data record, at A, A + 1, … (R382, R389). -/
theorem recordWrites_eq (a : Word) (data : List Byte) :
    recordWrites a data = data.zipIdx.map (fun d => (a + BitVec.ofNat 16 d.2, d.1)) := by
  suffices h : ∀ (n : Nat) (b : Word), b = a + BitVec.ofNat 16 n →
      recordWrites b data = (data.zipIdx n).map (fun d => (a + BitVec.ofNat 16 d.2, d.1)) from
    h 0 a (by simp)
  induction data with
  | nil => exact fun _ _ _ => rfl
  | cons v rest ih =>
    intro n b hb
    rw [recordWrites, List.zipIdx_cons, List.map_cons, ih (n + 1) (b + 1) (by subst hb; bv_omega), hb]

/-- A text that writes nothing. -/
theorem WritesNothing.loadWrites {text : List Byte} (h : WritesNothing text) :
    loadWrites (splitLines [] text) = [] := by
  obtain ⟨skipped, last, rfl, hs, ⟨line, part, tail, a, data, rfl, he, hr⟩ | ⟨hn, hl⟩⟩ := h
  · rw [hs.loadWrites, he.splitLines, loadWrites_some hr.parse]
    rfl
  · rw [hs.loadWrites, splitLines_last hn]
    cases hr : parseRecord last with
    | none => exact loadWrites_none hr []
    | some r =>
      have := hl _ _ _ (parseRecord_eq_some.mp hr)
      rw [loadWrites_some hr, if_neg (by intro e; simp [e] at this)]
      exact ite_self _

/-- No record contains a line feed. -/
theorem SpellsBytes.lf {text bytes : List Byte} (h : SpellsBytes text bytes) : 0x0A ∉ text := by
  have digit : ∀ {c : Byte} {n : Nat}, HexDigit c n → (0x0A : Byte) ≠ c := by
    rintro c n hd rfl
    simp only [HexDigit, BitVec.reduceToNat] at hd
    omega
  match text, bytes with
  | [], _ => simp
  | [_], [] => exact h.elim
  | [_], _ :: _ => exact h.elim
  | a :: b :: rest, [] => exact h.elim
  | a :: b :: rest, v :: bs =>
    obtain ⟨ha, hb, hr⟩ := h
    simp only [List.mem_cons, not_or]
    exact ⟨digit ha, digit hb, SpellsBytes.lf hr⟩

theorem SpellsRecord.lf {line data : List Byte} {a : Word} {type : Byte} (h : SpellsRecord line a type data) :
    0x0A ∉ line := by
  obtain ⟨-, digits, check, rfl, hs⟩ := h
  exact fun h => (List.mem_cons.mp h).elim (by decide) hs.lf

/-- A text that begins with a data record: its bytes, and then what the rest of the text writes. -/
theorem BeginsWithRecord.loadWrites {text data rest : List Byte} {a : Word} (h : BeginsWithRecord text a data rest) :
    loadWrites (splitLines [] text) =
      data.zipIdx.map (fun d => (a + BitVec.ofNat 16 d.2, d.1)) ++ loadWrites (splitLines [] rest) := by
  rw [← recordWrites_eq]
  obtain ⟨before, line, hs, hr, ⟨rfl, rfl⟩ | ⟨part, he, rfl⟩⟩ := h
  · rw [hs.loadWrites, splitLines_last hr.lf, loadWrites_some hr.parse]
    rfl
  · rw [List.append_assoc, hs.loadWrites, he.splitLines, loadWrites_some hr.parse]
    rfl

/-! ## What the byte writes leave -/

theorem writeBytes_append (x y : List (Word × Byte)) (s : State) :
    writeBytes (x ++ y) s = writeBytes y (writeBytes x s) := by
  induction x generalizing s with
  | nil => rfl
  | cons w rest ih => exact ih _

@[simp] theorem writeBytes_nil (s : State) : writeBytes [] s = s := rfl

@[simp] theorem writeBytes_cons (w : Word × Byte) (rest : List (Word × Byte)) (s : State) :
    writeBytes (w :: rest) s = writeBytes rest (busWrite w.1 w.2 true s) := rfl

/-- A debug write changes nothing but backing bytes, and does not depend on what travels beside the word. -/
theorem busWrite_debug (a : Word) (v : Byte) (s : State) :
    { busWrite a v true s with devs := s.devs } = s ∧
      ∀ b : Beside, busWrite a v true { s with beside := b } = { busWrite a v true s with beside := b } := by
  have hs : ∀ b : Beside, ({ s with beside := b } : State).select a = s.select a := fun _ => rfl
  simp only [busWrite, hs]
  cases s.select a with
  | none => exact ⟨rfl, fun _ => rfl⟩
  | some i =>
    simp only
    cases s.devs[i]? with
    | none => exact ⟨rfl, fun _ => rfl⟩
    | some d => exact ⟨rfl, fun _ => rfl⟩

/-- The loader's writes change nothing but backing bytes, and do not depend on what travels beside the word. -/
theorem writeBytes_debug (l : List (Word × Byte)) (s : State) :
    { writeBytes l s with devs := s.devs } = s ∧
      ∀ b : Beside, writeBytes l { s with beside := b } = { writeBytes l s with beside := b } := by
  induction l generalizing s with
  | nil => exact ⟨rfl, fun _ => rfl⟩
  | cons w rest ih =>
    obtain ⟨h, hb⟩ := busWrite_debug w.1 w.2 s
    obtain ⟨k, kb⟩ := ih (busWrite w.1 w.2 true s)
    refine ⟨?_, fun b => by rw [writeBytes_cons, writeBytes_cons, hb b, kb b]⟩
    rw [writeBytes_cons]
    conv_rhs => rw [← h, ← k]

/-- Debug writes one after another are the loader's writes. -/
theorem run_wrD (l : List (Word × Byte)) (s : State) (h : s.BusOpen) :
    run (l.map fun w => .wrD w.1 w.2) s = .next (writeBytes l s) := by
  induction l generalizing s with
  | nil => rfl
  | cons w rest ih =>
    have e : exec (.wrD w.1 w.2) s = .next (busWrite w.1 w.2 true s) := h.whenAdmitted _
    have hk := (busWrite_debug w.1 w.2 s).1
    have hf : (busWrite w.1 w.2 true s).fault = s.fault := by
      have e := congrArg State.fault hk; exact e
    have hp : (busWrite w.1 w.2 true s).phase = s.phase := by
      have e := congrArg State.phase hk; exact e
    rw [List.map_cons, run, e]
    exact ih _ ⟨hf.trans h.1, by rw [hp]; exact h.2⟩

end Sys2Proof.Machine
end

