-- ==== Sys2Proof/Tests/Slice0.lean ====
section
/-! SUPPORT. Tests: the words of the opcode table, one-step vectors of 95_test_vectors.md on its fixtures,
and for every statement with hypotheses a state and operands that meet them. -/

namespace Sys2Proof.Tests

open Sys2Proof Sys2Proof.Machine

set_option Elab.async false

/-! ## Well-formedness -/

/-- ATTACH's size goes up to 65536 (30_encoding.md R129). -/
theorem test_wellFormed_attach : (Instr.attach 65536).wellFormed = true := by decide

/-- A larger one is ill-formed. -/
theorem test_wellFormed_refuses : (Instr.attach 65537).wellFormed = false := by decide

/-! ## Decoding: every row's word, from the opcode table -/

/-- Every word decodes at the port to the operation beside it. -/
def decodesAll (p : Port) (words : List (TxWord × Instr)) : Bool :=
  words.all (fun c => match decode p c.1 with | .ok i => i == c.2 | .error _ => false)

/-- The requester byte and word transactions. -/
theorem test_decode_bus : decodesAll .requester
    [(0x00FFFE0000, .rd 0xFFFE), (0x10FFFE00C5, .wr 0xFFFE 0xC5),
     (0x20FFFE0000, .rdw 0xFFFE), (0x30FFFEABCD, .wrw 0xFFFE 0xABCD),
     (0x08FFFE0000, .rdD 0xFFFE), (0x18FFFE00C5, .wrD 0xFFFE 0xC5),
     (0x28FFFE0000, .rdwD 0xFFFE), (0x38FFFEABCD, .wrwD 0xFFFE 0xABCD)] = true := by decide +kernel

/-- The host operations. -/
theorem test_decode_host : decodesAll .requester
    [(0x8001010000, .attach 0x10000), (0x8002000000, .init), (0x8003000000, .quit),
     (0x8004000000, .activate), (0x8005000000, .deactivate), (0x8006000000, .event),
     (0x800701FFFF, .update 0x1FFFF), (0x8008000000, .render), (0x8009000000, .tick),
     (0x800A000000, .load), (0x800B000000, .shutdown)] = true := by decide +kernel

/-- The generic rows at a device with no handlers. -/
theorem test_decode_device : decodesAll (.device .ram)
    [(0x00FFFE0000, .devRd 0xFFFE), (0x10FFFE00C5, .devWr 0xFFFE 0xC5),
     (0x08FFFE0000, .devRdD 0xFFFE), (0x18FFFE00C5, .devWrD 0xFFFE 0xC5)] = true := by decide +kernel

/-- The ROM rows. -/
theorem test_decode_rom : decodesAll (.device .rom)
    [(0x10FFFE00C5, .romWr 0xFFFE 0xC5), (0x18FFFE00C5, .romWrD 0xFFFE 0xC5)] = true := by decide +kernel

/-- The display mode registers. -/
theorem test_decode_mode : decodesAll (.device .gpu)
    [(0x0000000000, .rdGpuMode), (0x10000000C5, .wrGpuMode 0xC5), (0x0000010000, .rdGpuRes),
     (0x10000100C5, .wrGpuRes 0xC5), (0x0000020000, .rdGpuOptions),
     (0x10000200C5, .wrGpuOptions 0xC5), (0x0000030000, .rdGpuVidtopMsb),
     (0x0000040000, .rdGpuVidtopLsb), (0x10000300C5, .wrGpuVidtopMsb 0xC5),
     (0x10000400C5, .wrGpuVidtopLsb 0xC5)] = true := by decide +kernel

/-- The palette registers. -/
theorem test_decode_palette : decodesAll (.device .gpu)
    [(0x0000050000, .rdGpuPalIndex), (0x10000500C5, .wrGpuPalIndex 0xC5),
     (0x0000060000, .rdGpuPalDataMsb), (0x0000070000, .rdGpuPalDataLsb),
     (0x10000600C5, .wrGpuPalDataMsb 0xC5), (0x10000700C5, .wrGpuPalDataLsb 0xC5),
     (0x0000080000, .rdGpuEpalIndex), (0x10000800C5, .wrGpuEpalIndex 0xC5),
     (0x0000090000, .rdGpuEpalDataMsb), (0x00000A0000, .rdGpuEpalDataLsb),
     (0x10000900C5, .wrGpuEpalDataMsb 0xC5), (0x10000A00C5, .wrGpuEpalDataLsb 0xC5)] = true := by decide +kernel

/-- The glyph registers. -/
theorem test_decode_glyph : decodesAll (.device .gpu)
    [(0x00000B0000, .rdGpuGlyphIndex), (0x10000B00C5, .wrGpuGlyphIndex 0xC5),
     (0x00000C0000, .rdGpuGlyphRow0), (0x00000D0000, .rdGpuGlyphRow1),
     (0x00000E0000, .rdGpuGlyphRow2), (0x00000F0000, .rdGpuGlyphRow3),
     (0x0000100000, .rdGpuGlyphRow4), (0x0000110000, .rdGpuGlyphRow5),
     (0x0000120000, .rdGpuGlyphRow6), (0x0000130000, .rdGpuGlyphRow7),
     (0x10000C00C5, .wrGpuGlyphRow0 0xC5), (0x10000D00C5, .wrGpuGlyphRow1 0xC5),
     (0x10000E00C5, .wrGpuGlyphRow2 0xC5), (0x10000F00C5, .wrGpuGlyphRow3 0xC5),
     (0x10001000C5, .wrGpuGlyphRow4 0xC5), (0x10001100C5, .wrGpuGlyphRow5 0xC5),
     (0x10001200C5, .wrGpuGlyphRow6 0xC5), (0x10001300C5, .wrGpuGlyphRow7 0xC5)] = true := by decide +kernel

/-- The blit registers. -/
theorem test_decode_blit : decodesAll (.device .gpu)
    [(0x0000140000, .rdGpuBlitAddrMsb), (0x0000150000, .rdGpuBlitAddrLsb),
     (0x10001400C5, .wrGpuBlitAddrMsb 0xC5), (0x10001500C5, .wrGpuBlitAddrLsb 0xC5),
     (0x0000160000, .rdGpuBlitPitchMsb), (0x0000170000, .rdGpuBlitPitchLsb),
     (0x10001600C5, .wrGpuBlitPitchMsb 0xC5), (0x10001700C5, .wrGpuBlitPitchLsb 0xC5),
     (0x0000180000, .rdGpuBlitWidthMsb), (0x0000190000, .rdGpuBlitWidthLsb),
     (0x10001800C5, .wrGpuBlitWidthMsb 0xC5), (0x10001900C5, .wrGpuBlitWidthLsb 0xC5),
     (0x00001A0000, .rdGpuBlitData), (0x10001A00C5, .wrGpuBlitData 0xC5)] = true := by decide +kernel

/-- The command and error registers. -/
theorem test_decode_command : decodesAll (.device .gpu)
    [(0x10001B00C5, .wrGpuCmd 0xC5), (0x00001B0000, .rdGpuCmd),
     (0x10001C00C5, .wrGpuError 0xC5), (0x00001C0000, .rdGpuError)] = true := by decide +kernel

/-- The coprocessor rows. -/
theorem test_decode_coprocessor : decodesAll (.coprocessor [0x01, 0x02])
    [(0x10001B0002, .cmdKnown 0x02), (0x10001B0042, .cmdUnknown 0x42)] = true := by decide +kernel

/-- The SYS registers. -/
theorem test_decode_sys : decodesAll (.device .sys)
    [(0x0000000000, .rdSysSpeed), (0x10000000C5, .wrSysSpeed 0xC5)] = true := by decide +kernel

/-- Reserved words (30_encoding.md R131; 95_test_vectors.md A8). -/
theorem test_decode_reserved :
    (decode .requester 0x4000000000 = .error .reservedClass) ∧
    (decode .requester 0x0100000000 = .error .reservedBits) ∧
    (decode .requester 0x0000000001 = .error .readData) ∧
    (decode .requester 0x1000000100 = .error .writeData) ∧
    (decode .requester 0x800C000000 = .error .reservedHop) ∧
    (decode .requester 0x8001010001 = .error .attachSize) ∧
    (decode .requester 0x8001020000 = .error .reservedBits) ∧
    (decode .requester 0x8002000001 = .error .hostArgument) ∧
    (decode (.device .gpu) 0x2000000000 = .error .reservedClass) := by decide +kernel

/-- A bare word of the table runs as the first operation (log 1). -/
theorem test_first_step :
    [0x8001000010, 0x8004000000, 0x10000000C5, 0x10001B0042, 0x00001A0000, 0x3000140100, 0x8009000000].all
      (fun w => match step (State.reset.withFetchWord 40 w) with | .next _ => true | _ => false) = true := by
  decide +kernel

/-! ## Fixtures (95_test_vectors.md section 1) -/

/-- `FPAL`. -/
def greys : Palette :=
  ⟨((List.range 256).map (fun i => BitVec.ofNat 16 (0xF000 + i % 16 * 0x111))).toArray, by simp⟩

/-- `FFONT`. -/
def numberFont : GlyphTable :=
  ⟨((List.range 256).map (fun g => Vector.replicate 8 (BitVec.ofNat 8 g))).toArray, by simp⟩

/-- A row of `FDMT`. -/
def dmtRow (timing w h px : Nat) (bitmap text : Bool) : DmtRow :=
  { timingIndex := timing, resWidth := w, resHeight := h, pixelWidth := px, pixelHeight := px
    stdBitmapValid := bitmap, textValid := text }

/-- `FDMT`. -/
def rows : Vector DmtRow 256 :=
  (((Vector.replicate 256 (dmtRow 0 320 200 2 true true)).set 1 (dmtRow 0 160 100 4 true true)).set 2
    (dmtRow 1 640 400 1 false true)).set 3 (dmtRow 0 256 160 2 false false)

/-- The fixture's parameters; `FTABLE`'s handlers are given where a test dispatches. -/
def fixture : Params :=
  { stdCap := 8192, extCap := 65536, dmt := rows, defaultPalette := greys, defaultFont := numberFont
    resetMode := 0x00, resetRes := 0x00, speedBudgets := Vector.replicate 14 1000
    commandTable := [{ opcode := 0x01, handler := 0, selfTest := 0 }, { opcode := 0x02, handler := 1, selfTest := 1 }]
    ramInit := [], extInit := [] }

/-- A device. -/
def device (k : DeviceKind) (base size : Nat) (backing : Memory) : Device :=
  { kind := k, range := { base := base, size := size }, backing := backing }

/-- `FMAP` (20_memory.md R96) with some bytes in its user RAM, its GPU and its vectors. -/
def fmap (user gpu vectors : Memory) : List Device :=
  [device .ram 0 16 [], device .videoRam 16 8192 [], device .ram 0x2010 0xBFF0 user,
   device .gpu 0xE000 32 gpu, device .sys 0xE020 16 [], device .rom 0xE030 0x1FC0 [],
   device .rom 0xFFF0 16 vectors]

/-- `GMAP`, and an OTHER device after it. -/
def gmap (user : Memory) : List Device :=
  [device .videoRam 0 8192 [], device .gpu 0x2000 32 [], device .sys 0x2020 16 [], device .ram 0x2030 0x5FD0 user]

/-- The display after Init: row 0, both planes off. -/
def dark : Display :=
  { row := 0, width := 320, height := 200, stdEn := false, stdBitmap := false, stdBpp := 1
    extEn := false, extBpp := 1, window := windowOf (entry rows 0) 0x00 }

/-- A machine of the fixture in phase RUN. -/
def machine (devs : List Device) (free : Nat) : State :=
  { cfg := fixture, nextFree := free, devs := devs
    gpu := { palette := greys, epalette := greys, glyph := numberFont, accMode := 0x00, accRes := 0x00
             dec := dark, widthCounter := 0, ext := [] }
    envDirty := false, running := true, phase := .run, fault := none
    frame := { width := 0, height := 0, pixels := [] }, achievedInterval := 0
    inbox := [], beside := Beside.empty, target := 3, resp := [], draws := 0 }

/-- Booted `FMAP`, the GPU as a DEV word's target. -/
def booted : State := machine (fmap [] [(4, 0x0F)] []) 65536

/-- Booted `FMAP` with some GPU bytes. -/
def withGpu (bytes : Memory) : State := machine (fmap [] bytes []) 65536

/-- Booted `GMAP`. -/
def openMap : State := machine (gmap []) 0x8000

/-- `GMAP` with an OTHER device at 0x8000, the word's target. -/
def otherMap : State := { machine (gmap [] ++ [device .other 0x8000 16 []]) 0x8010 with target := 4 }

/-- The empty bus, with a device kind beside the word. -/
def emptyBus (k : DeviceKind) (free : Nat) : State :=
  { machine [] free with
    phase := .construct, running := false
    beside := { Beside.empty with dev := k } }

/-- All of `FMAP` attached, before INIT. -/
def attached : State := { machine (fmap [] [] []) 65536 with phase := .construct, running := false }

/-- Phase READY, with a text beside the word. -/
def loading (text : List Byte) : State :=
  { booted with phase := .ready, running := false, beside := { Beside.empty with text := text } }

/-- A host that fails to create its window. -/
def failing (s : State) : State :=
  { s with beside := { s.beside with surfaces := { s.beside.surfaces with window := false } } }

/-- The handlers of `FTABLE`: ZERO16 clears 16 bytes, NEEDW fails on a zero width. -/
def handlers (n : Nat) (v : HandlerView) : HandlerResult :=
  let same : HandlerWrites :=
    { ext := v.ext, palette := v.palette, epalette := v.epalette, glyph := v.glyph
      blitAddr := 0, blitPitch := 0, blitWidth := 0, widthCounter := v.widthCounter }
  if n = 0 then .success { same with ext := v.ext.filter (fun c => decide (16 ≤ c.1)) }
  else .failure .invalidWidth

/-- What a step that completes leaves, seen through `f`. -/
def after {α : Type} (o : Host.Outcome State Fault Refusal) (f : State → α) : Option α :=
  match o with
  | .next t => some (f t)
  | .fault _ => none
  | .refused _ => none

/-- Why a step stops. -/
def faultOf (o : Host.Outcome State Fault Refusal) : Option Fault :=
  match o with
  | .next _ => none
  | .fault r => some r
  | .refused _ => none

/-- INIT, or an ATTACH, refuses its configuration. -/
def refusesConfiguration (o : Host.Outcome State Fault Refusal) : Bool :=
  match o with
  | .refused .configuration => true
  | _ => false

/-- Text as bytes. -/
def ascii (s : String) : List Byte := s.toList.map (fun c => BitVec.ofNat 8 c.toNat)

/-! ## Attach and routing (95_test_vectors.md 3.1) -/

/-- A1: a device of the whole space. -/
theorem test_attach_whole : after (exec (.attach 65536) (emptyBus .ram 0))
    (fun t => (t.ranges, t.nextFree)) = some ([{ base := 0, size := 65536 }], 65536) := by decide +kernel

/-- A2: no room for the GPU after it. -/
theorem test_attach_overflow : after (exec (.attach 0) (emptyBus .gpu 65536))
    (fun t => (t.fault, t.ranges)) = some (some .attachOverflow, []) := by decide +kernel

/-- A6: the last GPU byte and the first SYS byte. -/
theorem test_select : booted.select 0xE01F = some 3 ∧ booted.select 0xE020 = some 4 ∧
    booted.select 0x0010 = some 1 := by decide +kernel

/-! ## Bus transactions (95_test_vectors.md 3.2) -/

/-- B1. -/
theorem test_wr : after (exec (.wr 0x2010 0x5A) booted) (·.devByte 2 0) = some 0x5A := by decide +kernel

/-- B2. -/
theorem test_rd_open : after (exec (.rd 0x9000) openMap) (·.resp) = some [.byte 0xCC] := by decide +kernel

/-- B4: the low byte from open bus. -/
theorem test_rdw_open : after (exec (.rdw 0x7FFF) (machine (gmap [(0x5FCF, 0x12)]) 0x8000)) (·.resp) =
    some [.word 0x12CC] := by decide +kernel

/-- B6: the second byte wraps, the first falls on ROM. -/
theorem test_wrw_wraps : after (exec (.wrw 0xFFFF 0xABCD) (machine (fmap [] [] [(15, 0x11)]) 65536))
    (fun t => (t.devByte 6 15, t.devByte 0 0)) = some (0x11, 0xCD) := by decide +kernel

/-- B7: the debug form reaches the ROM. -/
theorem test_wrwD_rom : after (exec (.wrwD 0xFFFF 0xABCD) booted)
    (fun t => (t.devByte 6 15, t.devByte 0 0)) = some (0xAB, 0xCD) := by decide +kernel

/-- B8: a normal write to ROM is ignored. -/
theorem test_wr_rom : after (exec (.wr 0xE030 0x12) booted) (·.devByte 5 0) = some 0x00 := by decide +kernel

/-- B10: a normal read of the palette window, and a debug read of its backing bytes. -/
theorem test_rdw_palette : after (exec (.rdw 0xE006) (withGpu [(5, 0x03)])) (·.resp) =
    some [.word 0xF333] := by decide +kernel

theorem test_rdwD_palette : after (exec (.rdwD 0xE006) (withGpu [(5, 0x03)])) (·.resp) =
    some [.word 0x0000] := by decide +kernel

/-- B11: a debug write of GPU_MODE runs no pass. -/
theorem test_wrD_mode : after (exec (.wrD 0xE000 0xFF) booted)
    (fun t => (t.devByte 3 0, t.gpu.dec.stdEn, t.envDirty)) = some (0xFF, false, false) := by decide +kernel

/-- B14: a word read at the port takes its low byte from GPU_CMD, and the port advances once. -/
theorem test_rdw_port :
    after (exec (.rdw 0xE01A) { booted with gpu := { booted.gpu with ext := [(0, 0x77)] } })
      (fun t => (t.resp, t.blitAddr 3)) = some ([.word 0x7700], 0x0001) := by decide +kernel

/-! ## SYS (95_test_vectors.md 3.3) -/

/-- Y4: bits 7:4 are discarded. -/
theorem test_wr_speed : after (exec (.wrSysSpeed 0x35) { booted with target := 4 }) (·.devByte 4 0) =
    some 0x05 := by decide +kernel

/-! ## GPU registers (95_test_vectors.md 3.4) -/

/-- G2: 16000 bytes and more do not fit in 8192, so the depth is 1 bit per pixel. -/
theorem test_wr_mode : after (exec (.wrGpuMode 0x0F) booted)
    (fun t => (t.devByte 3 0, t.devWord 3 3, t.envDirty)) = some (0x0C, 0x1F4F, true) := by decide +kernel

/-- G3: a row without bitmap modes is rejected silently. -/
theorem test_wr_res : after (exec (.wrGpuRes 0x02)
      { withGpu [(0, 0x0C)] with gpu := { booted.gpu with accMode := 0x0C } })
    (fun t => (t.devByte 3 1, t.devByte 3 0, t.devByte 3 0x1C)) = some (0x00, 0x0C, 0x00) := by decide +kernel

/-- B12: both planes, the standard one clamped. -/
theorem test_wr_res_planes : after (exec (.wr 0xE001 0x00) (withGpu [(0, 0xFF)]))
    (fun t => (t.devByte 3 0, t.devWord 3 3, t.envDirty)) = some (0xEC, 0x1F4F, true) := by decide +kernel

/-- G4. -/
theorem test_wr_options : after (exec (.wrGpuOptions 0x80) booted)
    (fun t => (t.devByte 3 2, t.devByte 3 0, t.envDirty)) = some (0x80, 0x00, true) := by decide +kernel

/-- G5. -/
theorem test_wr_vidtop : after (exec (.wrGpuVidtopLsb 0x00) booted) (·.devWord 3 3) = some 0x000F := by
  decide +kernel

/-- G7, G8: each byte commits at once to its half. -/
theorem test_wr_pal_msb : after (exec (.wrGpuPalDataMsb 0xA5) (withGpu [(5, 0x03)])) (·.palEntry 3) =
    some 0xA533 := by decide +kernel

theorem test_wr_pal_lsb : after (exec (.wrGpuPalDataLsb 0x5A) (withGpu [(5, 0x03)])) (·.palEntry 3) =
    some 0xF35A := by decide +kernel

/-- G9: the extended palette is another table. -/
theorem test_wr_epal : after (exec (.wrw 0xE009 0x7F80) (withGpu [(5, 0x01), (8, 0x01)]))
    (fun t => (t.epalEntry 3, t.palEntry 3)) = some (0x7F80, 0xF111) := by decide +kernel

/-- G10, G11. -/
theorem test_rd_glyph : after (exec .rdGpuGlyphRow4 (withGpu [(0x0B, 0x41)])) (·.resp) =
    some [.byte 0x41] := by decide +kernel

theorem test_wr_glyph : after (exec (.wrGpuGlyphRow7 0xFF) (withGpu [(0x0B, 0x41)]))
    (fun t => (t.glyphRow 3 7, t.glyphRow 3 6)) = some (0xFF, 0x41) := by decide +kernel

/-! ## The decode pass (95_test_vectors.md 3.5) -/

/-- The mode and the top address of an accepted pass; a rejected one gives true and an overrun false. -/
def verdict (r : PassResult) : (Byte × Word) ⊕ Bool :=
  match r with
  | .accept a => .inl (a.mode, a.top)
  | .reject => .inr true
  | .overrun => .inr false

/-- Rows 0 to 3 of the table of 3.5, at VIDEO_BASE = 0x0010. -/
theorem test_pass :
    [(0x08, 0x00), (0x0F, 0x00), (0xE0, 0x00), (0x8F, 0x00), (0x08, 0x01), (0x0F, 0x01), (0x8F, 0x01),
      (0x08, 0x02), (0x0C, 0x02), (0xE0, 0x02), (0x08, 0x03), (0x80, 0x03)].map
      (fun c => verdict (decodePass fixture 16 0x00 c.1 c.2)) =
    [.inl (0x08, 0x07DF), .inl (0x0C, 0x1F4F), .inl (0xE0, 0x000F), .inl (0x8C, 0x1F4F),
     .inl (0x08, 0x01EF), .inl (0x0E, 0x1F4F), .inl (0x8E, 0x1F4F), .inl (0x08, 0x1F4F), .inr true,
     .inl (0xA0, 0x000F), .inr true, .inl (0x80, 0x000F)] := by decide +kernel

/-- The overrun vector: 8000 bytes do not fit in 4000. -/
theorem test_pass_overrun : after (exec (.wrGpuMode 0x0F) { booted with cfg := { fixture with stdCap := 4000 } })
    (fun t => (t.devByte 3 0x1C, t.devByte 3 0)) = some (11, 0x00) := by decide +kernel

/-! ## Render (95_test_vectors.md 3.6) -/

/-- The blend table. -/
theorem test_blend :
    [(0xF000, 0x8F84), (0xF123, 0x8F84), (0x1234, 0x0FFF), (0x1234, 0xF567), (0xFFFF, 0x7000), (0x0000, 0x0FFF)].map
      (fun c => blend c.1 c.2) = [0xC842, 0xC853, 0x1234, 0xF567, 0xB888, 0x0000] := by decide +kernel

/-- S5: pixels pack with the first most significant. -/
theorem test_pack :
    [packByte (fun q => [1, 0, 0, 0, 0, 0, 0, 1].getD q 0) 1 0, packByte (fun q => [3, 2, 1, 0].getD q 0) 2 0,
     packByte (fun q => [5, 10].getD q 0) 4 0, packByte (fun _ => 7) 8 0] = [0x81, 0xE4, 0x5A, 0x07] := by
  decide +kernel

/-- R3: glyph 0x41's row 0 is 0b01000001, foreground 1 and background 15. -/
theorem test_render_text :
    [(0, 0), (1, 0), (2, 0), (7, 0), (1, 7), (0, 8)].map (fun c =>
      ({ machine [device .videoRam 0 8192 [(0, 0x41), (1, 0x1F)]] 8192 with
         gpu := { booted.gpu with dec := { dark with stdEn := true } } } : State).pixel c.1 c.2) =
    [0xFFFF, 0xF111, 0xFFFF, 0xF111, 0xF111, 0xF000] := by decide +kernel

/-- RENDER stores the composed frame (R1, on a small display). -/
theorem test_render : after (exec .render
      { booted with gpu := { booted.gpu with dec := { dark with width := 2, height := 1 } } }) (·.frame) =
    some { width := 2, height := 1, pixels := [0xF000, 0xF000] } := by decide +kernel

/-! ## Blit port (95_test_vectors.md 3.7) -/

/-- T1: the fourth access of a row of 4 jumps to the next row. -/
theorem test_blit_write :
    after (exec (.wrGpuBlitData 0x44)
        { withGpu [(0x14, 0x01), (0x15, 0x03), (0x16, 0x01), (0x17, 0x40), (0x19, 0x04)] with
          gpu := { booted.gpu with widthCounter := 1 } })
      (fun t => (t.gpu.ext, t.blitAddr 3, t.gpu.widthCounter)) = some ([(0x0103, 0x44)], 0x0240, 4) := by
  decide +kernel

/-- T2: width 0 jumps at every access, and addresses wrap. -/
theorem test_blit_zero_width :
    after (exec .rdGpuBlitData (withGpu [(0x14, 0xFF), (0x15, 0xF8), (0x17, 0x10)]))
      (fun t => (t.blitAddr 3, t.gpu.widthCounter)) = some (0x0009, 0) := by decide +kernel

/-! ## Commands (95_test_vectors.md 3.8) -/

/-- C2: an unknown opcode. -/
theorem test_cmd_unknown : after (exec (.wrGpuCmd 0x42) booted)
    (fun t => (t.devByte 3 0x1C, t.devByte 3 0x1B)) = some (0x01, 0x00) := by decide +kernel

/-- C3: ZERO16 succeeds and clears no error. -/
theorem test_cmd_zero16 :
    (fun t : State => (t.gpu.ext, t.devByte 3 0x1C))
      ({ withGpu [(0x1C, 0x01)] with gpu := { booted.gpu with ext := [(15, 0x77), (16, 0x77)] } }.dispatchWith 3
        handlers 0x01) = ([(16, 0x77)], 0x01) := by decide +kernel

/-- C4: NEEDW fails with its code. -/
theorem test_cmd_needw : ((withGpu [(0x1C, 0x01)]).dispatchWith 3 handlers 0x02).devByte 3 0x1C = 0x04 := by
  decide +kernel

/-! ## Loader (95_test_vectors.md 3.9) -/

/-- L6: the address wraps, the first byte lands in ROM. -/
theorem test_load_wraps : after (exec .load (loading (ascii ":02FFFF00AABB9B\n")))
    (fun t => (t.devByte 6 15, t.devByte 0 0)) = some (0xAA, 0xBB) := by decide +kernel

/-- R381: a CR before the LF is dropped, and a later record's byte wins (H9). -/
theorem test_load_crlf : after (exec .load (loading (ascii ":02E03000A5C386\r\n:01E031005A00\r\n:00000001FF\r\n")))
    (fun t => (t.devByte 5 0, t.devByte 5 1)) = some (0xA5, 0x5A) := by decide +kernel

/-- L7: malformed lines are skipped, the last line needs no line end. -/
theorem test_load_malformed :
    after (exec .load (loading (ascii
        "\n02E03000A5C386\n:02E03000A5C3\n:0GE03000A5C386\n:02E03000A5C38600\n:01E03200EEFF")))
      (fun t => (t.devByte 5 0, t.devByte 5 1, t.devByte 5 2)) = some (0x00, 0x00, 0xEE) := by decide +kernel

/-! ## Lifecycle (95_test_vectors.md 3.10) -/

/-- H1, H7: operations outside their row have no step. -/
theorem test_not_admitted : faultOf (exec .tick (loading [])) = some .notAdmitted ∧
    faultOf (exec .quit booted) = some .notAdmitted ∧ faultOf (exec .load booted) = some .notAdmitted := by
  decide +kernel

/-- H3: the boot ACTIVATE. -/
theorem test_activate : after (exec .activate (loading [])) (fun t => (t.phase, t.running)) =
    some (.run, true) := by decide +kernel

/-- H4, H5: the dirty gate. -/
theorem test_update : after (exec (.update 16) { booted with envDirty := true })
    (fun t => (t.envDirty, t.fault)) = some (false, none) := by decide +kernel

theorem test_update_fails : after (exec (.update 16) (failing { booted with envDirty := true }))
    (fun t => (t.envDirty, t.fault)) = some (true, some .surfaceFailure) := by decide +kernel

/-- INIT leaves VIDTOP at VIDEO_BASE - 1, in phase READY (70_reset_and_hazards.md R444). -/
theorem test_init : after (exec .init attached) (fun t => (t.devWord 3 3, t.phase, t.palEntry 3)) =
    some (0x000F, .ready, 0xF000) := by decide +kernel

/-- 41_device.md R205: a RAM entry of size 0 reports its size, 0. -/
theorem test_attach_empty : after (exec (.attach 0) (emptyBus .ram 65536)) (·.ranges) =
    some [{ base := 65536, size := 0 }] := by decide +kernel

/-- A TICK runs its transactions and records the interval. -/
theorem test_tick :
    after (exec .tick { booted with
        beside := { Beside.empty with cpu := [.wrw 0x2010 0x1234, .rd 0x2011], interval := 9 } })
      (fun t => (t.resp, t.achievedInterval)) = some ([.byte 0x34], 9) := by decide +kernel

/-- R8(d) and R186: a row without a pixel size, budgets that increase, and a level 1 slower than level 0 are
refused. -/
theorem test_init_refused :
    [{ fixture with dmt := rows.set 255 (dmtRow 0 320 200 0 true true) },
     { fixture with speedBudgets := (Vector.replicate 14 1000).set 13 1001 },
     { fixture with speedBudgets := (Vector.replicate 14 1000).set 0 40001 },
     { fixture with speedBudgets := Vector.replicate 14 40000 }].map
      (fun p => refusesConfiguration (exec .init { attached with cfg := p })) = [true, true, true, false] := by
  decide +kernel

/-! ## Operations in steps (20_memory.md R102, R108) -/

/-- A request at the bus. -/
def request (w : TxWord) (split : List Nat) : Request :=
  { word := w, port := .requester, split := split, beside := Beside.empty }

/-- The rest of an operation. -/
def resuming (op : Instr) (steps : List AtomicStep) (held : Byte) (split : List Nat) : Entry :=
  .resume { op := op, steps := steps, held := held, beside := Beside.empty, split := split }

/-- 20_memory.md R108: a RENDER stands between the two writes of a WRW to GPU_PAL_DATA. -/
theorem test_split_write :
    after (step { withGpu [(5, 0x03)] with
        inbox := [.request (request 0x30E006A55A [1]), .request (request 0x8008000000 [])] })
      (fun t => (t.palEntry 3, t.inbox)) =
    some (0xA533, [.request (request 0x8008000000 []), resuming (.wrw 0xE006 0xA55A) [.write 0xE007 0x5A false] 0 []]) := by
  decide +kernel

/-- The second byte of a split RDW answers the word: the held byte and open bus. -/
theorem test_split_read :
    after (step { openMap with inbox := [resuming (.rdw 0x7FFF) [.readLow 0x8000 false] 0x12 []] }) (·.resp) =
    some [.word 0x12CC] := by decide +kernel

/-- UPDATE calls the last device's OnActivate; a write stands between it and the clearing of envDirty. -/
theorem test_split_update :
    after (step { booted with
        envDirty := true
        inbox := [resuming (.update 16) [.callback .activate .rom 6, .close .clearDirty] 0 [1], .request (request 0x10E0000008 [])] })
      (fun t => (t.envDirty, t.inbox)) =
    some (true, [.request (request 0x10E0000008 []), resuming (.update 16) [.close .clearDirty] 0 []]) := by
  decide +kernel

/-- R100: an ACTIVATE waits for the LOAD in progress, a RENDER for the UPDATE, a TICK for the TICK; a TICK does not
wait for the UPDATE. R448: once `running` is clear, QUIT waits for the TICK. -/
theorem test_one_operation :
    [(loading [], 0x8004000000, resuming .load [.write 0xE030 0xA5 true, .write 0xE031 0xC3 true] 0 [0, 0]),
     (booted, 0x8008000000, resuming (.update 16) [.callback (.update 16) .gpu 3] 0 [0]),
     (booted, 0x8009000000, resuming .tick [.write 0x2010 0x12 false] 0 [0]),
     (booted, 0x8009000000, resuming (.update 16) [.callback (.update 16) .gpu 3] 0 [0]),
     ({ booted with running := false }, 0x8003000000, resuming .tick [.write 0x2010 0x12 false] 0 [0])].map
      (fun c => after (step { c.1 with inbox := [.request (request c.2.1 []), c.2.2] })
        (fun t => (t.phase, t.inbox))) =
    [some (.ready, [resuming .load [.write 0xE031 0xC3 true] 0 [0], .request (request 0x8004000000 [])]),
     some (.run, [.request (request 0x8008000000 [])]), some (.run, [.request (request 0x8009000000 [])]),
     some (.run, [resuming (.update 16) [.callback (.update 16) .gpu 3] 0 [0]]),
     some (.run, [.request (request 0x8003000000 [])])] := by decide +kernel

/-- R447: what is left of a LOAD has no step in phase RUN; R180: a TICK is finished after SHUTDOWN. -/
theorem test_goes_on :
    faultOf (step { booted with inbox := [resuming .load [.write 0xE030 0xA5 true] 0 []] }) = some .notAdmitted ∧
    after (step { booted with running := false, inbox := [resuming .tick [.write 0x2010 0x12 false] 0 []] })
      (·.devByte 2 0) = some 0x12 := by decide +kernel

/-! ## Pseudo-instructions (30_encoding.md R136) -/

/-- SETPAL at a GPU at 0xE000: the words of 95_test_vectors.md P1. -/
theorem test_pseudo : ((Pseudo.setPal 0x01 0xF00F).expand 0xE000).map encode = [0x10E0050001, 0x30E006F00F] := by
  decide +kernel

/-! ## Witnesses: for every statement with hypotheses, a state and operands that meet them -/

/-- A step completes. -/
def completes (o : Host.Outcome State Fault Refusal) : Bool :=
  match o with
  | .next _ => true
  | .fault _ => false
  | .refused _ => false

theorem completes_next (o : Host.Outcome State Fault Refusal) (h : completes o = true) : ∃ t, o = .next t := by
  cases o with
  | next t => exact ⟨t, rfl⟩
  | fault r => simp [completes] at h
  | refused r => simp [completes] at h

/-- An operation completes and leaves what `f` accepts. -/
theorem after_some {o : Host.Outcome State Fault Refusal} {f : State → Bool} (h : after o f = some true) :
    ∃ t, o = .next t ∧ f t = true := by
  cases o with
  | next t => exact ⟨t, rfl, by simpa [after] using h⟩
  | fault r => simp [after] at h
  | refused r => simp [after] at h

/-- The fixture's machines keep the layout of the bus and the canonical form. -/
theorem machine_inv (user gpu vectors : Memory) (hu : user.wf = true ∧ user.below 0xBFF0 = true)
    (hg : gpu.wf = true ∧ gpu.below 32 = true) (hv : vectors.wf = true ∧ vectors.below 16 = true) :
    (machine (fmap user gpu vectors) 65536).Inv := by
  refine ⟨by simp [machine, fmap, device, LayoutFrom], by simp [machine, busSize], ?_,
    by simp [machine, Memory.wf, Memory.below]⟩
  intro d hd
  simp only [machine, fmap, List.mem_cons, List.not_mem_nil, or_false] at hd
  rcases hd with rfl | rfl | rfl | rfl | rfl | rfl | rfl <;>
    simp [Device.Sound, device, gpuBlockSize, sysBlockSize, hu, hg, hv] <;> decide

theorem withGpu_inv (bytes : Memory) (h : bytes.wf = true ∧ bytes.below 32 = true) : (withGpu bytes).Inv :=
  machine_inv [] bytes [] (by decide) h (by decide)

theorem booted_inv : booted.Inv := machine_inv [] [(4, 0x0F)] [] (by decide) (by decide) (by decide)

theorem openMap_inv : openMap.Inv := by
  refine ⟨by simp [openMap, machine, gmap, device, LayoutFrom], by decide, ?_, by decide⟩
  intro d hd
  simp only [openMap, machine, gmap, List.mem_cons, List.not_mem_nil, or_false] at hd
  rcases hd with rfl | rfl | rfl | rfl <;>
    simp [Device.Sound, device, gpuBlockSize, sysBlockSize, Memory.wf, Memory.below]

theorem otherMap_inv : otherMap.Inv := by
  refine ⟨by simp [otherMap, machine, gmap, device, LayoutFrom], by decide, ?_, by decide⟩
  intro d hd
  simp only [otherMap, machine, gmap, List.cons_append, List.nil_append, List.mem_cons, List.not_mem_nil,
    or_false] at hd
  rcases hd with rfl | rfl | rfl | rfl | rfl <;>
    simp [Device.Sound, device, gpuBlockSize, sysBlockSize, Memory.wf, Memory.below]

/-- The invariant reads the devices, the first free address and `gpu.ext` alone. -/
theorem inv_of_same {s t : State} (h : s.Inv) (hd : t.devs = s.devs) (hn : t.nextFree = s.nextFree)
    (he : t.gpu.ext = s.gpu.ext) : t.Inv :=
  ⟨by rw [hd, hn]; exact h.layout, by rw [hn]; exact h.bound, by rw [hd]; exact h.devices,
    by rw [he]; exact h.ext⟩

theorem booted_open : booted.BusOpen := ⟨rfl, .inr rfl⟩
theorem openMap_open : openMap.BusOpen := ⟨rfl, .inr rfl⟩
theorem otherMap_open : otherMap.BusOpen := ⟨rfl, .inr rfl⟩
theorem withGpu_open (bytes : Memory) : (withGpu bytes).BusOpen := ⟨rfl, .inr rfl⟩
theorem booted_loop : booted.LoopOpen := ⟨rfl, rfl, rfl⟩
theorem withGpu_port (bytes : Memory) : (withGpu bytes).PortOpen .gpu :=
  ⟨withGpu_open bytes, device .gpu 0xE000 32 bytes, rfl, rfl⟩
theorem booted_port : booted.PortOpen .gpu := withGpu_port [(4, 0x0F)]

/-- The SYS device as the target. -/
def atSys : State := { booted with target := 4 }

theorem atSys_inv : atSys.Inv := inv_of_same booted_inv rfl rfl rfl

/-- `FMAP`'s routing at the first and the last address of a device. -/
theorem maps_of {s : State} {a : Word} {i : Nat} {d : Device} (h : s.devs[i]? = some d)
    (hb : d.range.base ≤ a.toNat ∧ a.toNat < d.range.base + d.range.size) : s.Maps a i d := ⟨h, hb.1, hb.2⟩

/-- Past `GMAP`'s last device there is open bus. -/
theorem openMap_unmapped (a : Word) (h : 0x8000 ≤ a.toNat) : openMap.Unmapped a := by
  rintro i d ⟨hd, hb, hl⟩
  have hm : d ∈ openMap.devs := List.mem_of_getElem? hd
  simp only [openMap, machine, gmap, List.mem_cons, List.not_mem_nil, or_false] at hm
  rcases hm with rfl | rfl | rfl | rfl <;> simp only [device] at hl <;> omega

/-! ### Encoding and the step -/

theorem witness_decodeEncodesBack :
    (Port.requester.admits (.attach 65536) = true ∧ (Instr.attach 65536).wellFormed = true) ∧
    ((Port.device .gpu).admits (.wrGpuError 0xFF) = true ∧ (Instr.wrGpuError 0xFF).wellFormed = true) ∧
    ((Port.device .ram).admits (.devWr 0xFFFF 0xFF) = true ∧ (Instr.devWr 0xFFFF 0xFF).wellFormed = true) ∧
    ((Port.coprocessor [1]).admits (.cmdUnknown 2) = true ∧ (Instr.cmdUnknown 2).wellFormed = true) := by
  decide +kernel

theorem witness_encodeDecodesBack :
    decode .requester 0x8001010000 = .ok (.attach 65536) ∧
    decode (.device .gpu) 0x10001C00FF = .ok (.wrGpuError 0xFF) ∧
    decode (.coprocessor [1]) 0x10001B0001 = .ok (.cmdKnown 1) := by decide +kernel

/-- A reserved word by each clause of R131, and words at the edges that are not. -/
theorem witness_reservedWordsRefused :
    ({ booted with inbox := [.request (request 0x4000000000 [])] } : State).inbox =
      [.request (request 0x4000000000 [])] ∧
    (request 0x4000000000 []).port = .requester ∧
    ReservedWord 0x4000000000 ∧ ReservedWord 0x0100000000 ∧ ReservedWord 0x8000800000 ∧
    ReservedWord 0x1000000100 ∧ ReservedWord 0x2000000001 ∧ ReservedWord 0x800C000000 ∧
    ReservedWord 0x8001010001 ∧ ReservedWord 0x8002000001 ∧
    ¬ ReservedWord 0x8001010000 ∧ ¬ ReservedWord 0x800701FFFF ∧ ¬ ReservedWord 0x30FFFFFFFF := by
  refine ⟨rfl, rfl, ?_, ?_, ?_, ?_, ?_, ?_, ?_, ?_, ?_, ?_, ?_⟩ <;> simp only [ReservedWord] <;> decide +kernel

/-- Where no operation is in progress, nothing goes before one. -/
theorem free_of_requests {s : State} {r : Request} (h : s.inbox = [.request r]) (i : Instr) : s.Free i := by
  intro o ho
  rw [h] at ho
  simp at ho

/-- An operation of several steps that is not split, a byte transaction that is, and a TICK that waits for
another one. -/
theorem witness_stepRunsDecoded :
    (({ booted with inbox := [.request (request 0x20FFFF0000 [])] } : State).inbox =
      [.request (request 0x20FFFF0000 [])] ∧
      booted.decodeRequest (request 0x20FFFF0000 []) = .ok (.rdw 0xFFFF) ∧
      ({ booted with inbox := [.request (request 0x20FFFF0000 [])] } : State).Free (.rdw 0xFFFF) ∧
      (request 0x20FFFF0000 []).split = []) ∧
    (booted.decodeRequest (request 0x00FFFF0000 [0]) = .ok (.rd 0xFFFF) ∧ ¬ IsDivided (.rd 0xFFFF)) ∧
    (booted.decodeRequest (request 0x8009000000 []) = .ok .tick ∧
      booted.GoesBefore { op := .tick, steps := [.close (.interval 0)], held := 0, beside := Beside.empty, split := [] }
        .tick) :=
  ⟨⟨rfl, by decide +kernel, free_of_requests rfl _, rfl⟩, ⟨by decide +kernel, fun h => h⟩, by decide +kernel,
    .inl ⟨Iff.rfl, Iff.rfl, Iff.rfl⟩⟩

/-- Each of the four word transactions, at the address whose next one is 0. -/
theorem witness_stepSplitsWord :
    ({ booted with inbox := [.request (request 0x20FFFF0000 [1])] } : State).inbox =
      [.request (request 0x20FFFF0000 [1])] ∧ (request 0x20FFFF0000 [1]).port = .requester ∧
    (request 0x20FFFF0000 [1]).split = 1 :: [] ∧
    ({ booted with inbox := [.request (request 0x20FFFF0000 [1])] } : State).BusOpen ∧
    (∀ i, ({ booted with inbox := [.request (request 0x20FFFF0000 [1])] } : State).Free i) ∧
    booted.decodeRequest (request 0x20FFFF0000 [1]) = .ok (.rdw 0xFFFF) ∧
    booted.decodeRequest (request 0x28FFFF0000 [1]) = .ok (.rdwD 0xFFFF) ∧
    booted.decodeRequest (request 0x30FFFFABCD [1]) = .ok (.wrw 0xFFFF 0xABCD) ∧
    booted.decodeRequest (request 0x38FFFFABCD [1]) = .ok (.wrwD 0xFFFF 0xABCD) := by
  refine ⟨rfl, rfl, rfl, booted_open, free_of_requests rfl, ?_⟩
  decide +kernel

/-- A dirty UPDATE, whole and split, and the rest of one, with numbers left and without. -/
theorem witness_dividedOperations :
    (({ booted with envDirty := true } : State).Admits (.update 16) ∧
      ∃ a steps, ({ booted with envDirty := true } : State).atomicSteps (.update 16) = some (a :: steps)) ∧
    ((request 0x8007000010 [1]).port = .requester ∧ (request 0x8007000010 [1]).split = 1 :: [] ∧
      booted.decodeRequest (request 0x8007000010 [1]) = .ok (.update 16) ∧
      ({ booted with inbox := [.request (request 0x8007000010 [1])] } : State).Free (.update 16)) ∧
    (failing booted).fault = none ∧ booted.SurfacesCreated ∧ ¬ (failing booted).SurfacesCreated ∧
    ({ booted with inbox := [resuming (.update 16) [.close .clearDirty] 0 [0]] } : State).GoesOn (.update 16) ∧
    ({ booted with inbox := [resuming (.update 16) [.close .clearDirty] 0 []] } : State).GoesOn (.update 16) ∧
    booted.BusOpen :=
  ⟨⟨⟨rfl, rfl, rfl⟩, _, _, rfl⟩, ⟨rfl, rfl, by decide +kernel, free_of_requests rfl _⟩, rfl, ⟨rfl, rfl, rfl, rfl⟩,
    by simp [State.SurfacesCreated, failing], ⟨rfl, rfl⟩, ⟨rfl, rfl⟩, booted_open⟩

/-! ### The bus -/

theorem witness_routing : booted.Inv ∧ openMap.Inv ∧ booted.Maps 0xE01F 3 (device .gpu 0xE000 32 [(4, 0x0F)]) ∧
    openMap.Unmapped 0x8000 :=
  ⟨booted_inv, openMap_inv, maps_of rfl (by decide), openMap_unmapped _ (by decide)⟩

theorem witness_openBus : openMap.BusOpen ∧ openMap.Unmapped 0x8000 ∧ openMap.Unmapped 0xFFFF :=
  ⟨openMap_open, openMap_unmapped _ (by decide), openMap_unmapped _ (by decide)⟩

theorem witness_routedTransactions : booted.BusOpen ∧ booted.Inv ∧
    booted.Maps 0xE000 3 (device .gpu 0xE000 32 [(4, 0x0F)]) ∧
    booted.Maps 0xE02F 4 (device .sys 0xE020 16 []) ∧ booted.Maps 0xFFFF 6 (device .rom 0xFFF0 16 []) :=
  ⟨booted_open, booted_inv, maps_of rfl (by decide), maps_of rfl (by decide), maps_of rfl (by decide)⟩

theorem witness_wordIsTwoByteTransactions : booted.BusOpen ∧ openMap.BusOpen := ⟨booted_open, openMap_open⟩

/-- The device at an address of `FMAP`'s GPU is the GPU. -/
theorem booted_maps_gpu {i : Nat} {d : Device} (h : booted.Maps 0xE01B i d) : d.kind = .gpu ∧ d.range.base = 0xE000 := by
  obtain ⟨hd, hb, hl⟩ := h
  have hm : d ∈ booted.devs := List.mem_of_getElem? hd
  simp only [booted, machine, fmap, List.mem_cons, List.not_mem_nil, or_false] at hm
  rcases hm with rfl | rfl | rfl | rfl | rfl | rfl | rfl <;> simp_all [device]

/-- The address after the data port. -/
theorem witness_readsChangeNothing : booted.BusOpen ∧
    ∀ i d, booted.Maps 0xE01B i d →
      d.kind ≠ .other ∧ ¬(d.kind = .gpu ∧ (0xE01B : Word).toNat = d.range.base + 0x1A) := by
  refine ⟨booted_open, fun i d h => ?_⟩
  obtain ⟨hk, hb⟩ := booted_maps_gpu h
  rw [hk, hb]
  decide

theorem witness_readAfterWrite : booted.BusOpen ∧ booted.Inv ∧
    booted.Maps 0xDFFF 2 (device .ram 0x2010 0xBFF0 []) ∧ booted.Maps 0x200F 1 (device .videoRam 16 8192 []) ∧
    (booted.Maps 0xE021 4 (device .sys 0xE020 16 []) ∧ (0xE021 : Word).toNat ≠ 0xE020) ∧
    (booted.Maps 0xE005 3 (device .gpu 0xE000 32 [(4, 0x0F)]) ∧
      (0xE005 : Word).toNat - 0xE000 ∈ [0x05, 0x08, 0x0B, 0x14, 0x15, 0x16, 0x17]) ∧
    (booted.Maps 0xE01D 3 (device .gpu 0xE000 32 [(4, 0x0F)]) ∧ 0x1D ≤ (0xE01D : Word).toNat - 0xE000) :=
  ⟨booted_open, booted_inv, maps_of rfl (by decide), maps_of rfl (by decide),
    ⟨maps_of rfl (by decide), by decide⟩, ⟨maps_of rfl (by decide), by decide⟩,
    ⟨maps_of rfl (by decide), by decide⟩⟩

theorem witness_romIsWriteProtected : IsNormal (.wr 0xE030 0x12) = true ∧
    (∃ t, exec (.wr 0xE030 0x12) booted = .next t) ∧ booted.devs[5]? = some (device .rom 0xE030 0x1FC0 []) :=
  ⟨rfl, completes_next _ (by decide +kernel), rfl⟩

/-! ### Rows at a device's port -/

/-- A ROM as the target. -/
def atRom : State := { booted with target := 5 }

/-- The last byte of the GPU and of the ROM. -/
theorem witness_debugAccess : booted.BusOpen ∧ booted.Inv ∧
    (booted.devs[booted.target]? = some (device .gpu 0xE000 32 [(4, 0x0F)]) ∧ (0x001F : Word).toNat < 32) ∧
    atRom.BusOpen ∧ atRom.Inv ∧
    (atRom.devs[atRom.target]? = some (device .rom 0xE030 0x1FC0 []) ∧ (0x1FBF : Word).toNat < 0x1FC0) :=
  ⟨booted_open, booted_inv, ⟨rfl, by decide⟩, booted_open, inv_of_same booted_inv rfl rfl rfl, rfl, by decide⟩

theorem witness_plainBytes : booted.BusOpen ∧ booted.Inv ∧
    (booted.devs[booted.target]? = some (device .gpu 0xE000 32 [(4, 0x0F)]) ∧ (0x1D : Word).toNat < 32 ∧
      0x1D ≤ (0x1D : Word).toNat ∧ (0x05 : Word).toNat ∈ [0x05, 0x08, 0x0B, 0x14, 0x15, 0x16, 0x17]) ∧
    (atSys.devs[atSys.target]? = some (device .sys 0xE020 16 []) ∧ (0x01 : Word).toNat < 16 ∧
      (0x01 : Word).toNat ≠ 0) ∧
    (({ booted with target := 2 } : State).devs[2]? = some (device .ram 0x2010 0xBFF0 []) ∧
      (0xBFEF : Word).toNat < 0xBFF0) := by
  refine ⟨booted_open, booted_inv, ⟨rfl, ?_⟩, ⟨rfl, ?_⟩, rfl, ?_⟩ <;> decide

theorem witness_romAndOtherDevices :
    (atRom.BusOpen ∧ atRom.devs[atRom.target]? = some (device .rom 0xE030 0x1FC0 []) ∧
      (0x1FBF : Word).toNat < 0x1FC0) ∧
    (otherMap.BusOpen ∧ otherMap.devs[otherMap.target]? = some (device .other 0x8000 16 []) ∧
      (0x000F : Word).toNat < 16) :=
  ⟨⟨booted_open, rfl, by decide⟩, otherMap_open, rfl, by decide⟩

theorem witness_speedRegister : atSys.PortOpen .sys ∧ atSys.Inv :=
  ⟨⟨booted_open, device .sys 0xE020 16 [], rfl, rfl⟩, atSys_inv⟩

/-- Every clause of the stops at a port. -/
theorem witness_portStops :
    (booted.BusOpen ∧ booted.devs[booted.target]? = some (device .gpu 0xE000 32 [(4, 0x0F)]) ∧
      32 ≤ (0x20 : Word).toNat) ∧
    (({ booted with target := 7 } : State).devs[7]? = none ∧
      ({ booted with target := 7 } : State).commandEntry 0x42 = none ∧
      ({ booted with target := 7 } : State).commandEntry 0x01 ≠ none) ∧
    (atSys.commandEntry 0x42 = none ∧ atSys.commandEntry 0x01 ≠ none) ∧
    (Instr.rdGpuMode.rowKind = .gpuRegister ∧ Instr.rdSysSpeed.rowKind = .sysRegister) ∧
    (atSys.devs[atSys.target]? = some (device .sys 0xE020 16 []) ∧ (device .sys 0xE020 16 []).kind ≠ .gpu) ∧
    ((0x1A : Word).toNat < 32 ∧ (0x1C : Word).toNat < 32) ∧
    (atRom.devs[atRom.target]? = some (device .rom 0xE030 0x1FC0 []) ∧ (0x00 : Word).toNat < 0x1FC0) ∧
    (booted.commandEntry 0x42 = none ∧ booted.commandEntry 0x01 ≠ none) := by
  refine ⟨⟨booted_open, rfl, ?_⟩, ⟨rfl, ?_⟩, ?_, ?_, ⟨rfl, ?_⟩, ?_, ⟨rfl, ?_⟩, ?_⟩ <;> decide +kernel

/-! ### GPU registers and the decode pass -/

/-- RegisterReads, RegisterWrites, OptionsWrite, PaletteRegisters, WidthWrites, CommandRegisterClears. -/
theorem witness_gpuRegisters : booted.PortOpen .gpu ∧ booted.Inv ∧
    (Instr.rdGpuError, 0x1C) ∈ [(Instr.rdGpuMode, 0x00), (.rdGpuError, 0x1C)] :=
  ⟨booted_port, booted_inv, by simp⟩

/-- An accepted, a rejected and an overrunning pass. -/
theorem witness_modeAndResolutionWrites : booted.PortOpen .gpu ∧ booted.Inv ∧
    booted.OneVideoRam (device .videoRam 16 8192 []) ∧
    verdict (decodePass booted.cfg booted.videoBase (booted.devByte 3 2) 0x08 (booted.devByte 3 1)) =
      .inl (0x08, 0x07DF) ∧
    verdict (decodePass booted.cfg booted.videoBase (booted.devByte 3 2) 0x08 0x03) = .inr true ∧
    verdict (decodePass { fixture with stdCap := 4000 } 16 0x00 0x0F 0x00) = .inr false :=
  ⟨booted_port, booted_inv, by simp only [State.OneVideoRam]; decide +kernel, by decide +kernel⟩

theorem witness_paletteRoundTrip : booted.BusOpen ∧ booted.Inv ∧
    booted.Maps 0xE000 3 (device .gpu 0xE000 32 [(4, 0x0F)]) ∧ (0xE000 : Word).toNat = 0xE000 :=
  ⟨booted_open, booted_inv, maps_of rfl (by decide), by decide⟩

theorem witness_glyphRows : booted.PortOpen .gpu ∧
    ((7 : Fin 8), Instr.rdGpuGlyphRow7, Instr.wrGpuGlyphRow7 0xFF) ∈
      [((6 : Fin 8), Instr.rdGpuGlyphRow6, Instr.wrGpuGlyphRow6 0xFF),
        (7, .rdGpuGlyphRow7, .wrGpuGlyphRow7 0xFF)] := ⟨booted_port, by simp⟩

/-- Each verdict at its boundary: 8000 bytes against capacities of 8000 and 7999, 2000 of text against 1999. -/
theorem witness_passVerdict : dmtRow 0 320 200 2 true true = entry fixture.dmt 0x00 ∧
    verdict (decodePass { fixture with stdCap := 8000 } 16 0x00 0x0C 0x00) = .inl (0x0C, 0x1F4F) ∧
    verdict (decodePass { fixture with stdCap := 7999 } 16 0x00 0x0C 0x00) = .inr false ∧
    verdict (decodePass { fixture with stdCap := 1999 } 16 0x00 0x08 0x00) = .inr false ∧
    verdict (decodePass { fixture with extCap := 7999 } 16 0x00 0x80 0x00) = .inr false ∧
    verdict (decodePass fixture 16 0x00 0x0C 0x02) = .inr true ∧
    verdict (decodePass fixture 16 0x00 0x08 0x03) = .inr true := by decide +kernel

/-- A pass that accepts gives its results. -/
theorem accepted_of {r : PassResult} {v : Byte × Word} (h : verdict r = .inl v) : ∃ a, r = .accept a := by
  cases r with
  | accept a => exact ⟨a, rfl⟩
  | reject => simp [verdict] at h
  | overrun => simp [verdict] at h

/-- AcceptedPass and AppliedModeIsFixpoint: a clamped bitmap, text, and both planes off. -/
theorem witness_acceptedPass : (∃ r, decodePass fixture 16 0x00 0xEF 0x00 = .accept r) ∧
    (∃ r, decodePass fixture 16 0x00 0x1B 0x02 = .accept r) ∧
    (∃ r, decodePass fixture 0 0x00 0x73 0x03 = .accept r) :=
  ⟨accepted_of (v := (0xEC, 0x1F4F)) (by decide +kernel), accepted_of (v := (0x0B, 0x1F4F)) (by decide +kernel),
    accepted_of (v := (0x63, 0xFFFF)) (by decide +kernel)⟩

/-! ### The blit port, commands, the error register -/

/-- At the end of a row, and within one. -/
theorem witness_blitDataAccess :
    ((withGpu [(0x14, 0xFF), (0x15, 0xFF), (0x17, 0x10)]).PortOpen .gpu ∧
      (withGpu [(0x14, 0xFF), (0x15, 0xFF), (0x17, 0x10)]).Inv) ∧
    ({ booted with gpu := { booted.gpu with widthCounter := 2 } } : State).Inv :=
  ⟨⟨withGpu_port _, withGpu_inv _ (by decide)⟩, inv_of_same booted_inv rfl rfl rfl⟩

/-- Width 1 at pitch 1, the smallest rectangle. -/
theorem witness_blitSequencing :
    let s : State := { withGpu [(0x17, 0x01), (0x19, 0x01)] with
      gpu := { booted.gpu with widthCounter := 1 } }
    s.PortOpen .gpu ∧ s.Inv ∧ (s.blitWidth s.target).toNat = 1 ∧ 1 ≤ (s.blitPitch s.target).toNat ∧
    s.gpu.widthCounter = s.blitWidth s.target ∧
    (∀ i ∈ [Instr.rdGpuBlitData, .wrGpuBlitData 0xFF], IsPortAccess i) ∧
    [Instr.rdGpuBlitData, .wrGpuBlitData 0xFF].length = 2 * 1 := by
  refine ⟨⟨withGpu_open [(0x17, 0x01), (0x19, 0x01)], device .gpu 0xE000 32 [(0x17, 0x01), (0x19, 0x01)], rfl, rfl⟩,
    inv_of_same (withGpu_inv [(0x17, 0x01), (0x19, 0x01)] (by decide)) rfl rfl rfl, ?_, ?_, ?_, ?_, rfl⟩
  · decide +kernel
  · decide +kernel
  · decide +kernel
  · intro i hi
    simp only [List.mem_cons, List.not_mem_nil, or_false] at hi
    rcases hi with rfl | rfl
    · exact .inl rfl
    · exact .inr ⟨_, rfl⟩

theorem witness_unknownCommand : booted.PortOpen .gpu ∧ booted.Inv ∧
    ∀ e ∈ booted.cfg.commandTable, e.opcode ≠ 0x00 := ⟨booted_port, booted_inv, by decide +kernel⟩

theorem witness_knownCommand : booted.PortOpen .gpu ∧
    booted.commandEntry 0x02 = some { opcode := 0x02, handler := 1, selfTest := 1 } :=
  ⟨booted_port, by decide +kernel⟩

/-- A handler's result is a success. -/
theorem handlers_zero (v : HandlerView) : ∃ w, handlers 0 v = .success w := ⟨_, rfl⟩

theorem witness_handlerSuccess : booted.Inv ∧ booted.devs[3]? = some (device .gpu 0xE000 32 [(4, 0x0F)]) ∧
    booted.commandEntry 0x01 = some { opcode := 0x01, handler := 0, selfTest := 0 } ∧
    ∃ w, handlers 0
      { ext := booted.gpu.ext
        palette := booted.gpu.palette
        epalette := booted.gpu.epalette
        glyph := booted.gpu.glyph
        dec := booted.gpu.dec
        widthCounter := booted.gpu.widthCounter
        backing := (device .gpu 0xE000 32 [(4, 0x0F)]).backing } = .success w :=
  ⟨booted_inv, rfl, by decide +kernel, handlers_zero _⟩

theorem witness_handlerFailure : booted.Inv ∧ booted.devs[3]? = some (device .gpu 0xE000 32 [(4, 0x0F)]) ∧
    booted.commandEntry 0x02 = some { opcode := 0x02, handler := 1, selfTest := 1 } ∧
    handlers 1
      { ext := booted.gpu.ext
        palette := booted.gpu.palette
        epalette := booted.gpu.epalette
        glyph := booted.gpu.glyph
        dec := booted.gpu.dec
        widthCounter := booted.gpu.widthCounter
        backing := (device .gpu 0xE000 32 [(4, 0x0F)]).backing } = .failure .invalidWidth :=
  ⟨booted_inv, rfl, by decide +kernel, rfl⟩

theorem witness_errorIsSticky : (withGpu [(0x1C, 0x04)]).Inv ∧ IsNormal (.wrGpuError 0x00) = true ∧
    Instr.wrGpuError 0x00 ≠ .init ∧ (∃ t, exec (.wrGpuError 0x00) (withGpu [(0x1C, 0x04)]) = .next t) ∧
    (withGpu [(0x1C, 0x04)]).devs[3]? = some (device .gpu 0xE000 32 [(0x1C, 0x04)]) ∧
    (withGpu [(0x1C, 0x04)]).devByte 3 0x1C ≠ 0 :=
  ⟨withGpu_inv _ (by decide), rfl, by decide, completes_next _ (by decide +kernel), rfl, by decide +kernel⟩

/-! ### Attach and the lifecycle -/

/-- The whole space, the last 32 bytes for the GPU, exact block sizes, and a reported size. -/
theorem witness_attachAppends :
    ((emptyBus .ram 0).fault = none ∧ (emptyBus .ram 0).phase = .construct ∧
      (emptyBus .ram 0).nextFree + 65536 ≤ 65536) ∧
    ((emptyBus .gpu 0xFFE0).nextFree + 32 ≤ 65536 ∧ (emptyBus .gpu 0xFFE0).attachSize 0 = 32) ∧
    ((emptyBus .sys 0).attachSize 16 = 16 ∧ (emptyBus .videoRam 0).attachSize 0 = 8192 ∧
      (emptyBus .other 65536).attachSize 0 = 0 ∧ (emptyBus .other 65536).nextFree + 0 ≤ 65536) := by decide +kernel

theorem witness_attachOverflows : (emptyBus .gpu 0xFFE1).fault = none ∧ (emptyBus .gpu 0xFFE1).phase = .construct ∧
    65536 < (emptyBus .gpu 0xFFE1).nextFree + (emptyBus .gpu 0xFFE1).attachSize 0 := by decide +kernel

/-- The edges of each clause: a GPU of 31 and a SYS of 15 bytes; no device, two of each, another VIDEO_RAM, 65537
bytes of extended plane, a reset pair of a row that allows no plane, dimensions 0 and 65536, increasing budgets, and a
level 1 slower than level 0. -/
theorem witness_brokenConfiguration :
    ((emptyBus .gpu 0).fault = none ∧ (emptyBus .gpu 0).phase = .construct ∧
      (31 : BitVec 17).toNat ≠ 0 ∧ (31 : BitVec 17).toNat < 32 ∧
      (emptyBus .gpu 0).nextFree + (31 : BitVec 17).toNat ≤ 65536) ∧
    ((emptyBus .sys 0).beside.dev = .sys ∧ (15 : BitVec 17).toNat ≠ 0 ∧ (15 : BitVec 17).toNat < 16) ∧
    [emptyBus .ram 0, { attached with devs := attached.devs ++ [device .gpu 65536 32 []] },
     { attached with devs := attached.devs ++ [device .sys 65536 16 []] },
     { attached with devs := attached.devs ++ [device .videoRam 65536 8192 []] },
     { attached with cfg := { fixture with stdCap := 4000 } },
     { attached with cfg := { fixture with extCap := 65537 } },
     { attached with cfg := { fixture with resetMode := 0x08, resetRes := 0x03 } },
     { attached with cfg := { fixture with dmt := rows.set 255 (dmtRow 0 320 0 2 true true) } },
     { attached with cfg := { fixture with dmt := rows.set 0 (dmtRow 0 65536 1 2 true true) } },
     { attached with cfg := { fixture with dmt := rows.set 7 (dmtRow 0 1 1 65536 true true) } },
     { attached with cfg := { fixture with speedBudgets := (Vector.replicate 14 1000).set 13 1001 } },
     { attached with cfg := { fixture with speedBudgets := (Vector.replicate 14 1000).set 0 40001 } }].all
      (fun s => refusesConfiguration (exec .init s)) = true ∧
    refusesConfiguration (exec .init attached) = false := by decide +kernel

theorem attached_inv : attached.Inv :=
  inv_of_same (withGpu_inv [] (by decide)) rfl rfl rfl

theorem witness_initBoots : attached.Inv ∧ attached.fault = none ∧ attached.phase = .construct ∧
    attached.configured = true ∧ attached.devs[3]? = some (device .gpu 0xE000 32 []) ∧
    ∃ e ∈ attached.devs, e.kind = .videoRam :=
  ⟨attached_inv, rfl, rfl, by decide +kernel, rfl, device .videoRam 16 8192 [], by simp [attached, machine, fmap], rfl⟩

/-- The GPU of `FMAP` is attached. -/
theorem booted_gpu : ∃ d ∈ booted.devs, d.kind = .gpu :=
  ⟨device .gpu 0xE000 32 [(4, 0x0F)], by simp [booted, machine, fmap], rfl⟩

/-- A failing host. -/
theorem not_created (s : State) : ¬ (failing s).SurfacesCreated := by simp [State.SurfacesCreated, failing]

theorem witness_activate : (loading []).BusOpen ∧ (loading []).SurfacesCreated ∧ (failing booted).BusOpen ∧
    ¬ (failing booted).SurfacesCreated ∧ ∃ d ∈ (failing booted).devs, d.kind = .gpu :=
  ⟨⟨rfl, .inl rfl⟩, ⟨rfl, rfl, rfl, rfl⟩, booted_open, not_created _, booted_gpu⟩

theorem witness_updateDirtyGate : booted.LoopOpen ∧ booted.envDirty = false ∧ booted.SurfacesCreated ∧
    ({ booted with envDirty := true } : State).LoopOpen ∧
    (failing { booted with envDirty := true }).LoopOpen ∧
    (failing { booted with envDirty := true }).envDirty = true ∧
    ¬ (failing { booted with envDirty := true }).SurfacesCreated ∧
    ∃ d ∈ (failing { booted with envDirty := true }).devs, d.kind = .gpu :=
  ⟨booted_loop, rfl, ⟨rfl, rfl, rfl, rfl⟩, booted_loop, booted_loop, rfl, not_created _, booted_gpu⟩

theorem witness_tick : ({ booted with
    beside := { Beside.empty with cpu := [.wrw 0xFFFF 0x1234, .rdw 0xE01A] } } : State).LoopOpen := booted_loop

theorem witness_deactivateEventShutdownQuit : booted.BusOpen ∧ booted.LoopOpen ∧ booted.phase = .run ∧
    ({ booted with running := false } : State).BusOpen ∧ (loading []).BusOpen ∧ (loading []).running = false :=
  ⟨booted_open, booted_loop, rfl, booted_open, ⟨rfl, .inl rfl⟩, rfl⟩

/-! ### The loader and the render -/

/-- A line that no record spells, since it does not begin with a colon. -/
theorem skipped_of_head (line : List Byte) (h : line.head? ≠ some 0x3A) : SkippedLine line := by
  rintro a type data ⟨_, digits, check, rfl, _⟩
  simp at h

/-- The line of a data record of two bytes at 0xFFFF (L6), in either case and with a wrong checksum. -/
theorem spells_record : SpellsRecord (ascii ":02FFff00AAbB00") 0xFFFF 0x00 [0xAA, 0xBB] := by
  refine ⟨by decide, [0x30, 0x32, 0x46, 0x46, 0x66, 0x66, 0x30, 0x30, 0x41, 0x41, 0x62, 0x42, 0x30, 0x30], 0x00, by decide +kernel, ?_⟩
  simp only [SpellsBytes, List.cons_append, List.nil_append]
  repeat' apply And.intro
  all_goals first | trivial | (simp only [HexDigit]; decide +kernel)

/-- The end-of-file record. -/
theorem spells_end : SpellsRecord (ascii ":00000001FF") 0x0000 0x01 [] := by
  refine ⟨by decide, [0x30, 0x30, 0x30, 0x30, 0x30, 0x30, 0x30, 0x31, 0x46, 0x46], 0xFF, by decide +kernel, ?_⟩
  simp only [SpellsBytes, List.cons_append, List.nil_append]
  repeat' apply And.intro
  all_goals first | trivial | (simp only [HexDigit]; decide +kernel)

/-- A line of type 0x04 is skipped. -/
theorem skipped_type : SkippedLine (ascii ":020000040000FA") := by
  rintro a type data ⟨_, digits, check, hd, hs⟩
  rw [show ascii ":020000040000FA" = 0x3A :: [0x30, 0x32, 0x30, 0x30, 0x30, 0x30, 0x30, 0x34, 0x30, 0x30, 0x30, 0x30, 0x46, 0x41] by decide +kernel] at hd
  obtain rfl := (List.cons.inj hd).2
  simp only [SpellsBytes, HexDigit, List.cons_append] at hs
  have h := hs.2.2.2.2.2.2.1
  have k := hs.2.2.2.2.2.2.2.1
  have h0 : (0x30 : Byte).toNat = 48 := by decide
  have h4 : (0x34 : Byte).toNat = 52 := by decide
  omega

/-- The line of a data record of one byte at 0xFFFF. -/
theorem spells_byte : SpellsRecord (ascii ":01FFFF00CC00") 0xFFFF 0x00 [0xCC] := by
  refine ⟨by decide, [0x30, 0x31, 0x46, 0x46, 0x46, 0x46, 0x30, 0x30, 0x43, 0x43, 0x30, 0x30], 0x00, by decide +kernel, ?_⟩
  simp only [SpellsBytes, List.cons_append, List.nil_append]
  repeat' apply And.intro
  all_goals first | trivial | (simp only [HexDigit]; decide +kernel)

/-- An empty line and one of another type that ends in CR LF. -/
theorem skipped_before : SkippedText (ascii "\n:020000040000FA\r\n") := by
  refine ⟨[ascii "\n", ascii ":020000040000FA\r\n"], by decide +kernel, ?_⟩
  intro part hp
  simp only [List.mem_cons, List.not_mem_nil, or_false] at hp
  rcases hp with rfl | rfl
  · exact ⟨[], ⟨by simp, .inl (by decide +kernel)⟩, skipped_of_head _ (by simp)⟩
  · exact ⟨ascii ":020000040000FA", ⟨by decide +kernel, .inr (by decide +kernel)⟩, skipped_type⟩

/-- An empty line and the end of the file with a data record after it. -/
theorem nothing_after : WritesNothing (ascii "\n" ++ (ascii ":00000001FF\n" ++ ascii ":0100000042BD")) := by
  refine ⟨ascii "\n", _, rfl, ⟨[ascii "\n"], by simp, ?_⟩,
    .inl ⟨ascii ":00000001FF", _, _, 0x0000, [], rfl, ⟨by decide +kernel, .inl (by decide +kernel)⟩, spells_end⟩⟩
  intro part hp
  simp only [List.mem_cons, List.not_mem_nil, or_false] at hp
  subst hp
  exact ⟨[], ⟨by simp, .inl (by decide +kernel)⟩, skipped_of_head _ (by simp)⟩

/-- LoadChangesOnlyBytes, LoadWritesTheRecord and the texts of DividedOperations: lines that are skipped, a record that wraps, a second record that
overlaps it, and the end of the file with a tail; the second record alone; the tail alone; and the first record with
no line end. -/
theorem witness_load :
    let before := ascii "\n:020000040000FA\r\n"
    let line := ascii ":02FFff00AAbB00"
    let tail := ascii "\n" ++ (ascii ":00000001FF\n" ++ ascii ":0100000042BD")
    let second := ascii ":01FFFF00CC00" ++ [0x0A]
    let s := loading (before ++ (line ++ [0x0D, 0x0A]) ++ (second ++ tail))
    s.Inv ∧ s.fault = none ∧ s.phase = .ready ∧
    BeginsWithRecord s.beside.text 0xFFFF [0xAA, 0xBB] (second ++ tail) ∧
    BeginsWithRecord (loading (second ++ tail)).beside.text 0xFFFF [0xCC] tail ∧ WritesNothing tail ∧
    (¬ s.Unmapped (0xFFFF + BitVec.ofNat 16 0) ∧ ¬ s.Unmapped (0xFFFF + BitVec.ofNat 16 1)) ∧
    WritesNothing (loading tail).beside.text ∧
    BeginsWithRecord (loading (before ++ line)).beside.text 0xFFFF [0xAA, 0xBB] [] ∧ WritesNothing [] := by
  refine ⟨inv_of_same booted_inv rfl rfl rfl, rfl, rfl, ?_, ?_, nothing_after, ⟨?_, ?_⟩, nothing_after, ?_, ?_⟩
  · exact ⟨_, _, skipped_before, spells_record, .inr ⟨_, ⟨by decide +kernel, .inr rfl⟩, rfl⟩⟩
  · exact ⟨[], _, ⟨[], rfl, by simp⟩, spells_byte, .inr ⟨_, ⟨by decide +kernel, .inl ⟨rfl, by decide +kernel⟩⟩, rfl⟩⟩
  · exact fun hu => hu 6 (device .rom 0xFFF0 16 []) (maps_of rfl (by decide))
  · exact fun hu => hu 0 (device .ram 0 16 []) (maps_of rfl (by decide))
  · exact ⟨_, _, skipped_before, spells_record, .inl ⟨rfl, rfl⟩⟩
  · exact ⟨[], [], rfl, ⟨[], rfl, by simp⟩, .inr ⟨by simp, fun _ _ _ ⟨_, _, _, e, _⟩ => by cases e⟩⟩

/-- A display of some kind on the fixture. -/
def showing (d : Display) : State := { booted with gpu := { booted.gpu with dec := d } }

/-- Text over the extended plane, whose last rows have no cells. -/
def textDisplay : Display := { dark with width := 160, height := 100, stdEn := true, extEn := true, extBpp := 8 }

/-- A 1-bit bitmap. -/
def bitmapDisplay : Display := { dark with stdEn := true, stdBitmap := true }

/-- Both planes off, text on and past the last row of cells, and a bitmap, each at its last pixel. -/
theorem witness_renderComposes : booted.OneVideoRam (device .videoRam 16 8192 []) ∧ booted.cfg.extCap ≤ 65536 ∧
    (booted.LoopOpen ∧ 319 < booted.gpu.dec.width ∧ 199 < booted.gpu.dec.height) ∧
    (∃ d ∈ booted.devs, d.kind = .gpu) ∧
    ((showing textDisplay).LoopOpen ∧ 159 < textDisplay.width ∧ 99 < textDisplay.height ∧
      95 < 8 * (textDisplay.height / 8) ∧ ¬ (99 < 8 * (textDisplay.height / 8))) ∧
    ((showing bitmapDisplay).LoopOpen ∧ 319 < bitmapDisplay.width ∧ 199 < bitmapDisplay.height) :=
  ⟨by simp only [State.OneVideoRam]; decide +kernel, by decide, ⟨booted_loop, by decide, by decide⟩, booted_gpu, ⟨booted_loop, by decide⟩, booted_loop, by decide⟩

/-- Every depth, the last pixel of the frame. -/
theorem witness_packUnpack : (LegalBpp 1 ∧ LegalBpp 2 ∧ LegalBpp 4 ∧ LegalBpp 8) ∧ 8 ∣ 4 * 2 ∧ 7 < 4 * 2 ∧
    (∀ q, q < 4 * 2 → (fun n => n % 2) q < 2 ^ 1) ∧
    [(0x55 : Byte)] = (List.range (4 * 2 / 8 * 1)).map (packByte (fun n => n % 2) 1) := by
  refine ⟨by simp [LegalBpp], by decide, by decide, ?_, by decide +kernel⟩
  intro q _
  exact Nat.mod_lt q (by decide)

/-! ### The whole machine -/

theorem witness_fatalCauses :
    (∃ t, exec (.attach 0) (emptyBus .gpu 65536) = .next t ∧ t.fault = some .attachOverflow) ∧
    (∃ t, exec .activate (failing (loading [])) = .next t ∧ t.fault = some .surfaceFailure) ∧
    (∃ t, exec (.update 16) (failing { booted with envDirty := true }) = .next t ∧
      t.fault = some .surfaceFailure) := by
  refine ⟨?_, ?_, ?_⟩
  · obtain ⟨t, h, hf⟩ := after_some (f := fun t => t.fault == some .attachOverflow)
      (show after (exec (.attach 0) (emptyBus .gpu 65536)) _ = some true by decide +kernel)
    exact ⟨t, h, by simpa using hf⟩
  · obtain ⟨t, h, hf⟩ := after_some (f := fun t => t.fault == some .surfaceFailure)
      (show after (exec .activate (failing (loading []))) _ = some true by decide +kernel)
    exact ⟨t, h, by simpa using hf⟩
  · obtain ⟨t, h, hf⟩ := after_some (f := fun t => t.fault == some .surfaceFailure)
      (show after (exec (.update 16) (failing { booted with envDirty := true })) _ = some true by decide +kernel)
    exact ⟨t, h, by simpa using hf⟩

/-- A machine between two atomic steps: a TICK, the last callback of an UPDATE and a RENDER behind them. -/
def midway : State :=
  { booted with
    inbox := [resuming (.update 16) [.callback (.update 16) .rom 6] 0 [0], resuming .tick [.close (.interval 0)] 0 [],
      .request (request 0x8008000000 [])] }

theorem midway_inbox : midway.InboxInv := by
  constructor
  · intro o ho
    simp only [midway, resuming, List.mem_cons, List.not_mem_nil, or_false, Entry.resume.injEq, reduceCtorEq] at ho
    rcases ho with rfl | rfl
    · refine ⟨by decide, by simp, false, _, rfl, ?_⟩
      exact ⟨[.callback (.update 16) .ram 0, .callback (.update 16) .videoRam 1, .callback (.update 16) .ram 2,
        .callback (.update 16) .gpu 3, .callback (.update 16) .sys 4, .callback (.update 16) .rom 5], rfl⟩
    · exact ⟨by decide, by simp, false, _, rfl, [], rfl⟩
  · intro o ho _ _
    simp only [midway, resuming, List.mem_cons, List.not_mem_nil, or_false, Entry.resume.injEq, reduceCtorEq] at ho
    rcases ho with rfl | rfl <;> exact ⟨rfl, rfl⟩
  · simp [midway, resuming, SameAgent]

/-- The GPU's OnActivate and what follows it in a split UPDATE, with a failing host. -/
def failingMidway : State :=
  { booted with
    inbox := [.resume
      { op := .update 16
        steps := (({ booted with envDirty := true } : State).rebuildSteps ++ booted.fanSteps (.update 16)).drop 10
        held := 0
        beside := (failing booted).beside
        split := [] }] }

theorem failingMidway_inbox : failingMidway.InboxInv := by
  constructor
  · intro o ho
    simp only [failingMidway, List.mem_singleton, Entry.resume.injEq] at ho
    subst ho
    exact ⟨by decide, by decide +kernel, true, _, rfl, List.drop_suffix _ _⟩
  · intro o ho _ _
    simp only [failingMidway, List.mem_singleton, Entry.resume.injEq] at ho
    subst ho
    exact ⟨rfl, rfl⟩
  · exact List.pairwise_singleton _ _

/-- FatalCauses, LifecycleGoesForward, StepKeepsAgentsInOrder: a step between the atomic steps of two operations,
and one that fails. -/
theorem witness_agentsInOrder : midway.InboxInv ∧ (∃ t, step midway = .next t) ∧ failingMidway.InboxInv ∧
    ∃ t, step failingMidway = .next t ∧ t.fault = some .surfaceFailure := by
  refine ⟨midway_inbox, completes_next _ (by decide +kernel), failingMidway_inbox, ?_⟩
  obtain ⟨t, h, hf⟩ := after_some (f := fun t => t.fault == some .surfaceFailure)
    (show after (step failingMidway) _ = some true by decide +kernel)
  exact ⟨t, h, by simpa using hf⟩

/-- Every GPU of the fixture starts at 0xE000. -/
theorem booted_gpuByte {a : Word} {off : Nat} (h : booted.AtGpuByte a off) : a.toNat = 0xE000 + off := by
  obtain ⟨i, d, ⟨hd, -, -⟩, hk, ha⟩ := h
  have hm : d ∈ booted.devs := List.mem_of_getElem? hd
  simp only [booted, machine, fmap, List.mem_cons, List.not_mem_nil, or_false] at hm
  rcases hm with rfl | rfl | rfl | rfl | rfl | rfl | rfl <;> simp_all [device]

/-- A byte of GPU_OPTIONS, the word after it, and a TICK that writes it; and a TICK that misses it. -/
theorem witness_decodeStateHasOneWriter :
    (∃ t, exec (.wr 0xE002 0x01) booted = .next t) ∧ (∃ t, exec (.wrw 0xE002 0x0102) booted = .next t) ∧
    (∃ t, exec .tick { booted with beside := { Beside.empty with cpu := [.wr 0xE002 0x01] } } = .next t) ∧
    (∃ t, exec .tick { booted with beside := { Beside.empty with cpu := [.rdw 0xE000, .wrw 0xE003 0x01] } } = .next t) ∧
    (∀ a ∈ [(0xE002 : Word), 0xE003, 0xE004], ¬ booted.AtGpuByte a 0x00 ∧ ¬ booted.AtGpuByte a 0x01) ∧
    (∀ a ∈ [(0xE003 : Word), 0xE004], ¬ booted.AtGpuByte a 0x02) := by
  refine ⟨?_, ?_, ?_, ?_, ?_, ?_⟩
  iterate 4 exact completes_next _ (by decide +kernel)
  · intro a ha
    simp only [List.mem_cons, List.not_mem_nil, or_false] at ha
    rcases ha with rfl | rfl | rfl <;>
      exact ⟨fun h => absurd (booted_gpuByte h) (by decide), fun h => absurd (booted_gpuByte h) (by decide)⟩
  · intro a ha
    simp only [List.mem_cons, List.not_mem_nil, or_false] at ha
    rcases ha with rfl | rfl <;> exact fun h => absurd (booted_gpuByte h) (by decide)

/-- Admission and LifecycleGoesForward: operations of each row complete, a split one
begins, an operation in progress goes on, and a faulted state. -/
theorem witness_admission : (∃ t, exec (.attach 16) (emptyBus .ram 0) = .next t) ∧
    (∃ t, exec .init attached = .next t) ∧ (∃ t, exec .load (loading []) = .next t) ∧
    (∃ t, exec .activate (loading []) = .next t) ∧ (∃ t, exec .tick booted = .next t) ∧
    (∃ t, exec .shutdown booted = .next t) ∧
    (∃ t, exec .quit { booted with running := false } = .next t) ∧
    (∃ t, exec (.wrD 0xE000 0xFF) booted = .next t) ∧
    (∃ t, step { booted with inbox := [.request (request 0x8007000010 [1])] } = .next t) ∧
    (∃ t, step { booted with inbox := [resuming (.update 16) [.close .clearDirty] 0 [0]] } = .next t) ∧
    ({ booted with inbox := [.request (request 0x8007000010 [1])] } : State).Free (.update 16) ∧
    ({ booted with fault := some .surfaceFailure } : State).fault = some .surfaceFailure := by
  refine ⟨?_, ?_, ?_, ?_, ?_, ?_, ?_, ?_, ?_, ?_, free_of_requests rfl _, rfl⟩ <;>
    exact completes_next _ (by decide +kernel)

/-- A write of GPU_MODE in the inbox of a machine with a legal display: TablesNeverChange, StepKeepsLayout and
StepKeepsDisplayLegal. -/
def writing : State := { booted with inbox := [.request (request 0x10E000000C [])] }

theorem writing_legal : writing.LegalDisplay := by
  constructor <;> decide +kernel

theorem witness_stepInvariants : writing.Inv ∧ writing.DisplayInv ∧ writing.phase ≠ .construct ∧
    ∃ t, step writing = .next t :=
  ⟨inv_of_same booted_inv rfl rfl rfl, fun _ => writing_legal, by decide, completes_next _ (by decide +kernel)⟩

end Sys2Proof.Tests
end

section
/-! PROOFS. What INIT and ATTACH demand of a configuration (00_scope.md R8; 10_state.md R44; 40_bus.md R186):
each check of the model as the proposition it decides. -/

namespace Sys2Proof.Machine

/-! ## The checks of the parameters -/

theorem dimensionOk_iff (n : Nat) : dimensionOk n = true ↔ 1 ≤ n ∧ n ≤ 65535 := by
  simp [dimensionOk]

theorem dmtRowOk_iff (r : DmtRow) :
    dmtRowOk r = true ↔
      ∀ n ∈ [r.resWidth, r.resHeight, r.pixelWidth, r.pixelHeight], 1 ≤ n ∧ n ≤ 65535 := by
  simp [dmtRowOk, dimensionOk_iff, and_assoc]

/-- A check of a whole table of 256 is the check of the entry at each byte. -/
theorem toList_all_iff_entry {α : Type} (t : Vector α 256) (p : α → Bool) :
    t.toList.all p = true ↔ ∀ i : Byte, p (entry t i) = true := by
  rw [List.all_eq_true]
  constructor
  · exact fun h i => h _ (by simp [entry])
  · intro h x hx
    obtain ⟨n, hn, rfl⟩ := Vector.mem_iff_getElem.mp (Vector.mem_toList_iff.mp hx)
    have hb : (BitVec.ofNat 8 n).toNat = n := by simpa using hn
    simpa only [entry, hb] using h (BitVec.ofNat 8 n)

theorem PassResult.accepts_iff (r : PassResult) : r.accepts = true ↔ ∃ a, r = .accept a := by
  cases r <;> simp [PassResult.accepts]

/-! ## The speed levels (40_bus.md R186) -/

/-- Comparing neighbours compares every two: the order is transitive. -/
theorem nonIncreasing_iff_pairwise (l : List Nat) :
    nonIncreasing l = true ↔ l.Pairwise (fun a b => b ≤ a) := by
  rw [← List.isChain_iff_pairwise]
  induction l with
  | nil => simp [nonIncreasing]
  | cons a rest ih =>
    cases rest with
    | nil => simp [nonIncreasing]
    | cons b rest => simp [nonIncreasing, ih]

theorem pairwise_toList_iff {α : Type} {n : Nat} (t : Vector α n) (r : α → α → Prop) :
    t.toList.Pairwise r ↔ ∀ j k : Fin n, j < k → r t[j] t[k] := by
  rw [List.pairwise_iff_getElem]
  constructor
  · intro h j k hjk
    simpa using h j k (by simp) (by simp) hjk
  · intro h i j hi hj hij
    rw [Vector.length_toList] at hi hj
    simpa using h ⟨i, hi⟩ ⟨j, hj⟩ hij

/-- The levels ascend in speed where no budget exceeds level 0's or an earlier one's. -/
theorem ascendingSpeed_iff (p : Params) :
    ascendingSpeed p = true ↔
      (∀ j : Fin 14, p.speedBudgets[j] ≤ 40000) ∧
        ∀ j k : Fin 14, j < k → p.speedBudgets[k] ≤ p.speedBudgets[j] := by
  rw [ascendingSpeed, nonIncreasing_iff_pairwise, List.pairwise_cons, pairwise_toList_iff]
  refine and_congr_left' ?_
  simp only [Vector.mem_toList_iff, Vector.mem_iff_getElem, slowestBudgetNs]
  constructor
  · exact fun h j => h _ ⟨j, j.isLt, rfl⟩
  · rintro h _ ⟨n, hn, rfl⟩
    exact h ⟨n, hn⟩

/-! ## INIT and ATTACH in phase CONSTRUCT -/

/-- The configurations that INIT accepts: (a) to (d) of 00_scope.md R8 and the order of the budgets. -/
theorem State.configured_iff (s : State) :
    s.configured = true ↔
      (∀ k ∈ [DeviceKind.gpu, .videoRam, .sys], s.devs.countP (fun d => d.kind == k) = 1) ∧
      (∀ d ∈ s.devs, d.kind = .videoRam → d.range.size = s.cfg.stdCap) ∧ s.cfg.extCap ≤ extMemSize ∧
      (∃ r, decodePass s.cfg s.videoBase 0x00 s.cfg.resetMode s.cfg.resetRes = .accept r) ∧
      (∀ (j : Byte), ∀ n ∈ [(entry s.cfg.dmt j).resWidth, (entry s.cfg.dmt j).resHeight,
        (entry s.cfg.dmt j).pixelWidth, (entry s.cfg.dmt j).pixelHeight], 1 ≤ n ∧ n ≤ 65535) ∧
      (∀ j : Fin 14, s.cfg.speedBudgets[j] ≤ 40000) ∧
      ∀ j k : Fin 14, j < k → s.cfg.speedBudgets[k] ≤ s.cfg.speedBudgets[j] := by
  have hkinds : (∀ k ∈ [DeviceKind.gpu, .videoRam, .sys], s.devs.countP (fun d => d.kind == k) = 1) ↔
      s.countKind .gpu = 1 ∧ s.countKind .videoRam = 1 ∧ s.countKind .sys = 1 := by
    simp [State.countKind]
  have hsizes : s.devs.all (fun d => d.kind != .videoRam || d.range.size == s.cfg.stdCap) = true ↔
      ∀ d ∈ s.devs, d.kind = .videoRam → d.range.size = s.cfg.stdCap := by
    simp [or_iff_not_imp_left]
  simp only [State.configured, Bool.and_eq_true, beq_iff_eq, decide_eq_true_eq, hkinds, hsizes,
    toList_all_iff_entry, dmtRowOk_iff, ascendingSpeed_iff, PassResult.accepts_iff]
  tauto

/-- In phase CONSTRUCT, INIT refuses exactly the configurations that are not accepted. -/
theorem exec_init_refused_iff {s : State} (hf : s.fault = none) (hp : s.phase = .construct) :
    exec .init s = .refused .configuration ↔ ¬ s.configured = true := by
  have hinit : exec .init s = execInit s := rfl
  rw [hinit, execInit, State.admit_open hf (by simp [hp])]
  split_ifs with hc <;> simp [hc]

theorem undersized_iff (k : DeviceKind) (size : Nat) :
    undersized k size = true ↔ (k = .gpu ∧ size < gpuBlockSize) ∨ (k = .sys ∧ size < sysBlockSize) := by
  simp [undersized]

/-- An explicit size is the size attached (40_bus.md R161). -/
theorem State.attachSize_of_ne_zero (s : State) {size : BitVec 17} (h : size.toNat ≠ 0) :
    s.attachSize size = size.toNat := if_neg h

/-- An undersized GPU or SYS entry that fits is refused (00_scope.md R8(e)). -/
theorem exec_attach_refused {s : State} {size : BitVec 17} (hf : s.fault = none) (hp : s.phase = .construct)
    (hfit : s.nextFree + s.attachSize size ≤ busSize)
    (hu : undersized s.beside.dev (s.attachSize size) = true) :
    exec (.attach size) s = .refused .configuration := by
  have hattach : exec (.attach size) s = execAttach size s := rfl
  rw [hattach, execAttach, State.admit_open hf (by simp [hp]), if_neg (Nat.not_lt.mpr hfit), if_pos hu]

/-- Settles O41: an undersized entry by the test at ATTACH, and INIT by negating each check of
`State.configured`. -/
theorem brokenConfigurationRefused : Obligations.BrokenConfigurationRefused := by
  intro s size hf hp
  refine ⟨fun hfit hdev => ?_, ?_⟩
  · have hne : size.toNat ≠ 0 := hdev.elim (·.2.1) (·.2.1)
    have hsize := s.attachSize_of_ne_zero hne
    refine exec_attach_refused hf hp (by rw [hsize]; exact hfit) ?_
    rw [hsize, undersized_iff]
    exact hdev.imp (fun ⟨hk, _, hlt⟩ => ⟨hk, hlt⟩) (fun ⟨hk, _, hlt⟩ => ⟨hk, hlt⟩)
  · rw [exec_init_refused_iff hf hp, State.configured_iff]
    simp only [not_and_or, not_forall, not_exists, not_le, exists_prop, ne_eq, extMemSize]

end Sys2Proof.Machine
end

section
/-! PROOFS. What running an operation can do, whole: atomic steps one after the other, one byte access at a
device's port, an attach, INIT, or the stop of the main loop. What holds of every operation is proved of these
forms, and what holds of every step of the block by `step_induction`. -/

namespace Sys2Proof.Machine

/-! ## Runs of atomic steps -/

/-- The atomic steps that an operation may take: its normal byte writes go to the addresses it writes, and only
the debug path and the loader make debug writes (60_exceptions.md R420). -/
def State.MayTake (s : State) (i : Instr) : AtomicStep → Prop
  | .write a _ false => a ∈ s.written i
  | .write _ _ true => IsNormal i = false
  | _ => True

@[simp] theorem State.written_wr (s : State) (a : Word) (v : Byte) : s.written (.wr a v) = [a] := rfl
@[simp] theorem State.written_wrw (s : State) (a w : Word) : s.written (.wrw a w) = [a, a + 1] := rfl
@[simp] theorem State.written_tick (s : State) :
    s.written .tick = s.beside.cpu.flatMap CpuTransaction.written := rfl

/-- One atomic step of those allowed leads from `u` to `v`. -/
def TakesStep (ok : AtomicStep → Prop) (u v : State) : Prop :=
  ∃ (a : AtomicStep) (h : Byte), ok a ∧ v = (a.run h u).2

/-- Some of the allowed atomic steps, one after the other. -/
def RunsTo (ok : AtomicStep → Prop) : State → State → Prop := Relation.ReflTransGen (TakesStep ok)

theorem RunsTo.refl (ok : AtomicStep → Prop) (s : State) : RunsTo ok s s := Relation.ReflTransGen.refl

theorem RunsTo.step {ok : AtomicStep → Prop} {s u : State} (hu : RunsTo ok s u) {a : AtomicStep} (ha : ok a)
    (h : Byte) : RunsTo ok s (a.run h u).2 := Relation.ReflTransGen.tail hu ⟨a, h, ha, rfl⟩

/-- What every allowed step keeps, a run of them keeps. -/
theorem RunsTo.induction {ok : AtomicStep → Prop} {p : State → Prop} {s t : State} (h : RunsTo ok s t) (hs : p s)
    (step : ∀ a k u, ok a → p u → p (AtomicStep.run a k u).2) : p t := by
  induction h with
  | refl => exact hs
  | tail _ hv ih =>
    obtain ⟨a, k, ha, rfl⟩ := hv
    exact step a k _ ha ih

section runs

variable {s u : State} {i : Instr}

theorem RunsTo.readByte (hu : RunsTo (s.MayTake i) s u) (a : Word) (dbg : Bool) :
    RunsTo (s.MayTake i) s (busReadByte a dbg u) := hu.step (a := .read a dbg) trivial 0

/-- A word read holds the byte of its first step and answers the word with its second. -/
theorem RunsTo.readWord (hu : RunsTo (s.MayTake i) s u) (a : Word) (dbg : Bool) :
    RunsTo (s.MayTake i) s (busReadWord a dbg u) :=
  (hu.step (a := .readHigh a dbg) trivial 0).step (a := .readLow (a + 1) dbg) trivial (busRead a dbg u).1

theorem RunsTo.write (hu : RunsTo (s.MayTake i) s u) {a : Word} (ha : a ∈ s.written i) (v : Byte) :
    RunsTo (s.MayTake i) s (busWrite a v false u) := hu.step (a := .write a v false) ha 0

theorem RunsTo.writeDebug (hu : RunsTo (s.MayTake i) s u) (hi : IsNormal i = false) (a : Word) (v : Byte) :
    RunsTo (s.MayTake i) s (busWrite a v true u) := hu.step (a := .write a v true) hi 0

theorem RunsTo.callback (hu : RunsTo (s.MayTake i) s u) (c : Callback) (k : DeviceKind) (j : Nat) :
    RunsTo (s.MayTake i) s (c.run k j u) := hu.step (a := .callback c k j) trivial 0

theorem RunsTo.close (hu : RunsTo (s.MayTake i) s u) (c : Closing) :
    RunsTo (s.MayTake i) s (c.run u) := hu.step (a := .close c) trivial 0

theorem RunsTo.fanOut (hu : RunsTo (s.MayTake i) s u) (c : Callback) :
    RunsTo (s.MayTake i) s (u.fanOut c.run) :=
  State.fanOut_induction (fun k j _ h => h.callback c k j) u hu

theorem RunsTo.cpuTransaction (hu : RunsTo (s.MayTake i) s u) (c : CpuTransaction)
    (hc : ∀ a ∈ c.written, a ∈ s.written i) : RunsTo (s.MayTake i) s (cpuTransaction c u) := by
  cases c with
  | rd a => exact hu.readByte a false
  | wr a v => exact hu.write (hc a (by simp [CpuTransaction.written])) v
  | rdw a => exact hu.readWord a false
  | wrw a w =>
    exact (hu.write (hc a (by simp [CpuTransaction.written])) _).write
      (hc (a + 1) (by simp [CpuTransaction.written])) _

theorem RunsTo.cpuStep (hu : RunsTo (s.MayTake i) s u) (l : List CpuTransaction)
    (hl : ∀ c ∈ l, ∀ a ∈ c.written, a ∈ s.written i) : RunsTo (s.MayTake i) s (cpuStep l u) := by
  induction l generalizing u with
  | nil => exact hu
  | cons c rest ih =>
    exact ih (hu.cpuTransaction c (hl c List.mem_cons_self)) fun d hd => hl d (List.mem_cons_of_mem _ hd)

theorem RunsTo.writeBytes (hu : RunsTo (s.MayTake i) s u) (hi : IsNormal i = false) (l : List (Word × Byte)) :
    RunsTo (s.MayTake i) s (writeBytes l u) := by
  induction l generalizing u with
  | nil => exact hu
  | cons w rest ih => exact ih (hu.writeDebug hi w.1 w.2)

/-- UPDATE's rebuild is a Deactivate and Activate cycle and the clearing of the dirty flag (40_bus.md R172). -/
theorem RunsTo.rebuild (hu : RunsTo (s.MayTake i) s u) : RunsTo (s.MayTake i) s u.rebuild := by
  unfold State.rebuild
  split_ifs
  · have cycle := (hu.fanOut .deactivate).fanOut .activate
    exact State.unlessFatal_induction cycle (cycle.close .clearDirty)
  · exact hu

end runs

/-! ## One byte access at a device's port -/

/-- The bytes of the register block of a kind (00_scope.md R8(e)). -/
def registerBlock : DeviceKind → Nat
  | .gpu => gpuBlockSize
  | .sys => sysBlockSize
  | _ => 0

/-- An offset is inside a device's range or its register block. -/
def Device.HasByte (d : Device) (off : Nat) : Prop := off < d.range.size ∨ off < registerBlock d.kind

/-- A sound device's register block is inside its range. -/
theorem Device.Sound.lt_size {d : Device} (h : d.Sound) {off : Nat} (ho : d.HasByte off) : off < d.range.size := by
  obtain ⟨-, -, hgpu, hsys⟩ := h
  refine ho.elim id fun ho => ?_
  cases hk : d.kind <;> rw [hk] at ho
  case gpu => exact Nat.lt_of_lt_of_le ho (hgpu hk)
  case sys => exact Nat.lt_of_lt_of_le ho (hsys hk)
  all_goals exact absurd ho (Nat.not_lt_zero off)

/-- An operation that writes the GPU's offset 0x00, 0x01 or 0x02 at its port is that register's own row. -/
def DecodeRow (i : Instr) (off : Nat) : Prop :=
  (off = 0x00 → ∃ v, i = .wrGpuMode v) ∧ (off = 0x01 → ∃ v, i = .wrGpuRes v) ∧
    (off = 0x02 → ∃ v, i = .wrGpuOptions v)

theorem DecodeRow.of_lt (i : Instr) {off : Nat} (h : 0x02 < off) : DecodeRow i off :=
  ⟨fun e => by omega, fun e => by omega, fun e => by omega⟩

/-- A read of a byte at a device's port, answered to the requester. -/
def portRead (k : DeviceKind) (i off : Nat) (dbg : Bool) (s : State) : State :=
  (devRead k i off dbg s).2.respond (.byte (devRead k i off dbg s).1)

theorem gpuRead_of_no_handler {off : Nat} (h : hasReadHandler .gpu off = false) (i : Nat) (s : State) :
    gpuRead i off s = (s.devByte i off, s) := by
  unfold gpuRead
  split
  case h_14 => rfl
  all_goals exact absurd h (by decide)

theorem gpuWrite_of_no_handler {off : Nat} (h : hasWriteHandler .gpu off = false) (i : Nat) (v : Byte) (s : State) :
    gpuWrite i off v s = s.setDevByte i off v := by
  unfold gpuWrite
  split
  case h_23 => rfl
  all_goals exact absurd h (by decide)

/-- A normal read of a byte with no handler is one of its backing byte, but for an OTHER device (41_device.md R202,
R211). -/
theorem devRead_of_no_handler {k : DeviceKind} {off : Nat} (h : hasReadHandler k off = false) (i : Nat) (s : State) :
    devRead k i off false s = if k = .other then s.drawByte else (s.devByte i off, s) := by
  cases k
  case gpu => exact gpuRead_of_no_handler h i s
  all_goals rfl

/-- A normal write of a byte with no handler stores it, but to an OTHER device and to ROM (41_device.md R202, R207,
R211). -/
theorem devWrite_of_no_handler {k : DeviceKind} {off : Nat} (h : hasWriteHandler k off = false) (hk : k ≠ .rom)
    (i : Nat) (v : Byte) (s : State) :
    devWrite k i off v false s = if k = .other then s else s.setDevByte i off v := by
  cases k
  case gpu => exact gpuWrite_of_no_handler h i v s
  case sys =>
    have hoff : off ≠ regSpeed := by rintro rfl; exact absurd h (by decide)
    exact if_neg hoff
  case rom => exact absurd rfl hk
  all_goals rfl

/-! ## What running an operation can do -/

/-- The forms that running an operation can have. -/
inductive Effect (i : Instr) (s : State) : State → Prop
  /-- atomic steps one after the other -/
  | run {t : State} (h : RunsTo (s.MayTake i) s t) : Effect i s t
  /-- a byte read at the port of the target -/
  | read (d : Device) (off : Nat) (dbg : Bool) (hd : s.devs[s.target]? = some d) :
    Effect i s (portRead d.kind s.target off dbg s)
  /-- a byte write at the port of the target -/
  | write (d : Device) (off : Nat) (v : Byte) (dbg : Bool) (hd : s.devs[s.target]? = some d) (ho : d.HasByte off)
    (hdbg : dbg = true → IsNormal i = false) (hrow : d.kind = .gpu → dbg = false → DecodeRow i off) :
    Effect i s (devWrite d.kind s.target off v dbg s)
  /-- ATTACH of a device that fits and is not undersized -/
  | attach (size : Nat) (hfit : s.nextFree + size ≤ busSize) (hu : undersized s.beside.dev size = false) :
    Effect i s (s.appendDevice s.beside.dev size)
  /-- ATTACH beyond 64K -/
  | overflow : Effect i s (s.raise .attachOverflow)
  /-- INIT -/
  | init (hi : i = .init) : Effect i s { s.fanOut onInit with phase := .ready }
  /-- SHUTDOWN -/
  | shutdown : Effect i s { s with running := false }

section rows

variable {i : Instr} {s t : State}

/-- An operation that runs wherever it is admitted. -/
theorem Effect.ofAdmitted {ok : Bool} {f : State} (h : s.whenAdmitted ok (.next f) = .next t) (hf : Effect i s f) :
    Effect i s t := by
  obtain ⟨-, -, e⟩ := State.admit_eq_next.mp h
  cases e
  exact hf

/-- A read row of a kind of device. -/
theorem Effect.ofDeviceRead (k : DeviceKind) (off : Nat)
    (h : s.atDevice k (fun j u => portRead k j off false u) = .next t) : Effect i s t := by
  obtain ⟨-, -, ⟨d, hd, rfl⟩, rfl⟩ := State.atDevice_eq_next.mp h
  exact .read d off false hd

/-- A write row of a kind of device. -/
theorem Effect.ofDeviceWrite (k : DeviceKind) (off : Nat) (v : Byte) (ho : off < registerBlock k)
    (hrow : k = .gpu → DecodeRow i off) (h : s.atDevice k (fun j u => devWrite k j off v false u) = .next t) :
    Effect i s t := by
  obtain ⟨-, -, ⟨d, hd, rfl⟩, rfl⟩ := State.atDevice_eq_next.mp h
  exact .write d off v false hd (.inr ho) (fun e => Bool.noConfusion e) fun hk _ => hrow hk

/-- A write row of the GPU other than those of GPU_MODE, GPU_RES and GPU_OPTIONS. -/
theorem Effect.ofGpuWrite (off : Nat) (v : Byte) (ho : 0x02 < off ∧ off < gpuBlockSize)
    (h : s.atDevice .gpu (fun j u => gpuWrite j off v u) = .next t) : Effect i s t :=
  .ofDeviceWrite .gpu off v ho.2 (fun _ => .of_lt i ho.1) h

/-- A row of the command coprocessor is the write of GPU_CMD whose dispatch it names (46_command.md R361). -/
theorem Effect.ofDispatch {op : Byte} {act : Nat → State → State}
    (hact : ∀ j, act j s = s.dispatchWith j Config.handler op) (h : s.atDevice .gpu act = .next t) : Effect i s t := by
  obtain ⟨hf, hb, hd, rfl⟩ := State.atDevice_eq_next.mp h
  refine .ofGpuWrite regCmd op (by decide) (State.atDevice_eq_next.mpr ⟨hf, hb, hd, ?_⟩)
  exact hact s.target

theorem Effect.ofCmdKnown {op : Byte} (h : execCmdKnown op s = .next t) : Effect i s t := by
  unfold execCmdKnown at h
  split at h
  · next e he => exact .ofDispatch (op := op) (fun j => by simp only [State.dispatchWith, he]) h
  · cases h

theorem Effect.ofCmdUnknown {op : Byte} (h : execCmdUnknown op s = .next t) : Effect i s t := by
  unfold execCmdUnknown at h
  split at h
  · cases h
  · next he => exact .ofDispatch (op := op) (fun j => by simp only [State.dispatchWith, he]) h

theorem Effect.ofDevRd {off : Word} (h : execDevRd off s = .next t) : Effect i s t := by
  obtain ⟨-, -, d, hd, -, hrow, rfl⟩ := State.atByte_eq_next.mp h
  have e : portRead d.kind s.target off.toNat false s =
      if d.kind = .other then s.drawByte.2.respond (.byte s.drawByte.1) else s.answerByte s.target off.toNat := by
    rw [portRead, devRead_of_no_handler (by simpa using hrow)]
    split_ifs <;> rfl
  exact e ▸ .read d off.toNat false hd

theorem Effect.ofDevWr {off : Word} {v : Byte} (h : execDevWr off v s = .next t) : Effect i s t := by
  obtain ⟨-, -, d, hd, ho, hrow, rfl⟩ := State.atByte_eq_next.mp h
  obtain ⟨hrom, hnone⟩ : d.kind ≠ .rom ∧ hasWriteHandler d.kind off.toNat = false := by simpa using hrow
  rw [← devWrite_of_no_handler hnone hrom]
  refine .write d off.toNat v false hd (.inl ho) (fun e => Bool.noConfusion e) fun hk _ => .of_lt i ?_
  rw [hk] at hnone
  simp only [hasWriteHandler, beq_self_eq_true, Bool.true_and, Bool.or_eq_false_iff, decide_eq_false_iff_not] at hnone
  omega

/-- A debug read row, at any offset of any device (41_device.md R204). -/
theorem Effect.ofDevRdD {off : Word} (h : execDevRdD off s = .next t) : Effect i s t := by
  obtain ⟨-, -, d, hd, -, -, rfl⟩ := State.atByte_eq_next.mp h
  exact .read d off.toNat true hd

/-- A normal write to ROM is ignored (41_device.md R207). -/
theorem Effect.ofRomWr {off : Word} {v : Byte} (h : execRomWr off v s = .next t) : Effect i s t := by
  obtain ⟨-, -, -, -, -, -, rfl⟩ := State.atByte_eq_next.mp h
  exact .run (.refl _ _)

/-- A debug write row, at any offset of any device (41_device.md R204, R208). -/
theorem Effect.ofDebugWrite {off : Word} {v : Byte} {row : Device → Bool} (hi : IsNormal i = false)
    (h : s.atByte off row (fun j _ u => u.setDevByte j off.toNat v) = .next t) : Effect i s t := by
  obtain ⟨-, -, d, hd, ho, -, rfl⟩ := State.atByte_eq_next.mp h
  exact .write d off.toNat v true hd (.inl ho) (fun _ => hi) fun _ e => Bool.noConfusion e

theorem Effect.ofAttach {size : BitVec 17} (h : execAttach size s = .next t) : Effect i s t := by
  obtain ⟨-, -, h⟩ := State.admit_eq_next.mp h
  split_ifs at h with hfit hu
  · cases h; exact .overflow
  · cases h; exact .attach _ (Nat.not_lt.mp hfit) (by simpa using hu)

end rows

/-- Running an operation has one of the forms of `Effect`. -/
theorem exec_effect {i : Instr} {s t : State} (h : exec i s = .next t) : Effect i s t := by
  have start := RunsTo.refl (s.MayTake i) s
  cases i with
  | rd a => exact .ofAdmitted h (.run (start.readByte a false))
  | wr a v => exact .ofAdmitted h (.run (start.write (by simp) v))
  | rdw a => exact .ofAdmitted h (.run (start.readWord a false))
  | wrw a w =>
    exact .ofAdmitted h (.run ((start.write (by simp) _).write (by simp) _))
  | rdD a => exact .ofAdmitted h (.run (start.readByte a true))
  | wrD a v => exact .ofAdmitted h (.run (start.writeDebug rfl a v))
  | rdwD a => exact .ofAdmitted h (.run (start.readWord a true))
  | wrwD a w => exact .ofAdmitted h (.run ((start.writeDebug rfl _ _).writeDebug rfl _ _))
  | attach size => exact .ofAttach h
  | init =>
    obtain ⟨-, -, h⟩ := State.admit_eq_next.mp h
    split_ifs at h
    cases h
    exact .init rfl
  | quit => exact .ofAdmitted h (.run ((start.fanOut .quit).close .finish))
  | activate =>
    have fan := start.fanOut .activate
    exact .ofAdmitted h (.run (State.unlessFatal_induction fan (fan.close .enterRun)))
  | deactivate => exact .ofAdmitted h (.run (start.fanOut .deactivate))
  | event => exact .ofAdmitted h (.run (start.fanOut (.event s.beside.event)))
  | update dt =>
    exact .ofAdmitted h (.run (State.unlessFatal_induction start.rebuild (start.rebuild.fanOut (.update dt))))
  | render => exact .ofAdmitted h (.run (start.fanOut .render))
  | tick =>
    refine .ofAdmitted h (.run ((start.cpuStep s.beside.cpu fun c hc a ha => ?_).close (.interval s.beside.interval)))
    exact List.mem_flatMap.mpr ⟨c, hc, ha⟩
  | load => exact .ofAdmitted h (.run (start.writeBytes rfl s.textWrites))
  | shutdown => exact .ofAdmitted h .shutdown
  | devRd off => exact .ofDevRd h
  | devWr off v => exact .ofDevWr h
  | devRdD off => exact .ofDevRdD h
  | devWrD off v => exact .ofDebugWrite rfl h
  | romWr off v => exact .ofRomWr (v := v) h
  | romWrD off v => exact .ofDebugWrite rfl h
  | rdGpuMode => exact .ofDeviceRead .gpu regMode h
  | wrGpuMode v => exact .ofDeviceWrite .gpu regMode v (by decide) (fun _ => by simp [DecodeRow]) h
  | rdGpuRes => exact .ofDeviceRead .gpu regRes h
  | wrGpuRes v => exact .ofDeviceWrite .gpu regRes v (by decide) (fun _ => by simp [DecodeRow]) h
  | rdGpuOptions => exact .ofDeviceRead .gpu regOptions h
  | wrGpuOptions v => exact .ofDeviceWrite .gpu regOptions v (by decide) (fun _ => by simp [DecodeRow]) h
  | rdGpuVidtopMsb => exact .ofDeviceRead .gpu regVidtop h
  | rdGpuVidtopLsb => exact .ofDeviceRead .gpu (regVidtop + 1) h
  | wrGpuVidtopMsb v => exact .ofGpuWrite regVidtop v (by decide) h
  | wrGpuVidtopLsb v => exact .ofGpuWrite (regVidtop + 1) v (by decide) h
  | rdGpuPalIndex => exact .ofDeviceRead .gpu regPalIndex h
  | wrGpuPalIndex v => exact .ofGpuWrite regPalIndex v (by decide) h
  | rdGpuPalDataMsb => exact .ofDeviceRead .gpu 0x06 h
  | rdGpuPalDataLsb => exact .ofDeviceRead .gpu 0x07 h
  | wrGpuPalDataMsb v => exact .ofGpuWrite 0x06 v (by decide) h
  | wrGpuPalDataLsb v => exact .ofGpuWrite 0x07 v (by decide) h
  | rdGpuEpalIndex => exact .ofDeviceRead .gpu regEpalIndex h
  | wrGpuEpalIndex v => exact .ofGpuWrite regEpalIndex v (by decide) h
  | rdGpuEpalDataMsb => exact .ofDeviceRead .gpu 0x09 h
  | rdGpuEpalDataLsb => exact .ofDeviceRead .gpu 0x0A h
  | wrGpuEpalDataMsb v => exact .ofGpuWrite 0x09 v (by decide) h
  | wrGpuEpalDataLsb v => exact .ofGpuWrite 0x0A v (by decide) h
  | rdGpuGlyphIndex => exact .ofDeviceRead .gpu regGlyphIndex h
  | wrGpuGlyphIndex v => exact .ofGpuWrite regGlyphIndex v (by decide) h
  | rdGpuGlyphRow0 => exact .ofDeviceRead .gpu 0x0C h
  | rdGpuGlyphRow1 => exact .ofDeviceRead .gpu 0x0D h
  | rdGpuGlyphRow2 => exact .ofDeviceRead .gpu 0x0E h
  | rdGpuGlyphRow3 => exact .ofDeviceRead .gpu 0x0F h
  | rdGpuGlyphRow4 => exact .ofDeviceRead .gpu 0x10 h
  | rdGpuGlyphRow5 => exact .ofDeviceRead .gpu 0x11 h
  | rdGpuGlyphRow6 => exact .ofDeviceRead .gpu 0x12 h
  | rdGpuGlyphRow7 => exact .ofDeviceRead .gpu 0x13 h
  | wrGpuGlyphRow0 v => exact .ofGpuWrite 0x0C v (by decide) h
  | wrGpuGlyphRow1 v => exact .ofGpuWrite 0x0D v (by decide) h
  | wrGpuGlyphRow2 v => exact .ofGpuWrite 0x0E v (by decide) h
  | wrGpuGlyphRow3 v => exact .ofGpuWrite 0x0F v (by decide) h
  | wrGpuGlyphRow4 v => exact .ofGpuWrite 0x10 v (by decide) h
  | wrGpuGlyphRow5 v => exact .ofGpuWrite 0x11 v (by decide) h
  | wrGpuGlyphRow6 v => exact .ofGpuWrite 0x12 v (by decide) h
  | wrGpuGlyphRow7 v => exact .ofGpuWrite 0x13 v (by decide) h
  | rdGpuBlitAddrMsb => exact .ofDeviceRead .gpu regBlitAddr h
  | rdGpuBlitAddrLsb => exact .ofDeviceRead .gpu (regBlitAddr + 1) h
  | wrGpuBlitAddrMsb v => exact .ofGpuWrite regBlitAddr v (by decide) h
  | wrGpuBlitAddrLsb v => exact .ofGpuWrite (regBlitAddr + 1) v (by decide) h
  | rdGpuBlitPitchMsb => exact .ofDeviceRead .gpu regBlitPitch h
  | rdGpuBlitPitchLsb => exact .ofDeviceRead .gpu (regBlitPitch + 1) h
  | wrGpuBlitPitchMsb v => exact .ofGpuWrite regBlitPitch v (by decide) h
  | wrGpuBlitPitchLsb v => exact .ofGpuWrite (regBlitPitch + 1) v (by decide) h
  | rdGpuBlitWidthMsb => exact .ofDeviceRead .gpu regBlitWidth h
  | rdGpuBlitWidthLsb => exact .ofDeviceRead .gpu (regBlitWidth + 1) h
  | wrGpuBlitWidthMsb v => exact .ofGpuWrite regBlitWidth v (by decide) h
  | wrGpuBlitWidthLsb v => exact .ofGpuWrite (regBlitWidth + 1) v (by decide) h
  | rdGpuBlitData => exact .ofDeviceRead .gpu 0x1A h
  | wrGpuBlitData v => exact .ofGpuWrite 0x1A v (by decide) h
  | wrGpuCmd op => exact .ofGpuWrite regCmd op (by decide) h
  | rdGpuCmd => exact .ofDeviceRead .gpu regCmd h
  | wrGpuError v => exact .ofGpuWrite regError v (by decide) h
  | rdGpuError => exact .ofDeviceRead .gpu regError h
  | cmdKnown op => exact .ofCmdKnown h
  | cmdUnknown op => exact .ofCmdUnknown h
  | rdSysSpeed => exact .ofDeviceRead .sys regSpeed h
  | wrSysSpeed v => exact .ofDeviceWrite .sys regSpeed v (by decide) (fun e => DeviceKind.noConfusion e) h

/-! ## What a step of the block keeps -/

/-- What taking an entry gives, and what every operation, every atomic step and a change of the inbox keep, holds
after a step of the block. -/
theorem step_induction {p : State → Prop} {s t : State} (h : step s = .next t)
    (latch : ∀ r rest, p (s.latch r rest)) (relatch : ∀ o rest, p (s.relatch o rest))
    (operation : ∀ i u v, p u → exec i u = .next v → p v)
    (atomic : ∀ a k u, p u → p (AtomicStep.run a k u).2) (inbox : ∀ u q, p u → p { u with inbox := q }) : p t := by
  rcases step_cases h with ⟨r, rest, i, -, -, he⟩ | ⟨r, rest, i, o, -, -, -, -, rfl⟩ | ⟨o, rest, -, -, rfl⟩
  · exact operation i _ _ (latch r rest) he
  · exact State.advance_induction atomic inbox _ o (latch r rest)
  · exact State.advance_induction atomic inbox _ o (relatch o rest)

end Sys2Proof.Machine
end

section
/-! PROOFS. Every step keeps the parameters, the bus layout with the canonical form of every memory, and the devices
where they are (10_state.md R33, R35, R44, R50). -/

namespace Sys2Proof.Machine

/-! ## The parameters -/

theorem State.clearBytes_reaches (s : State) (i : Nat) (offs : List Nat) : Reaches i s (s.clearBytes i offs) := by
  induction offs generalizing s with
  | nil => exact Reaches.refl i s
  | cons off rest ih => exact (State.setDevByte_reaches s i off _).trans (ih _)

/-- OnInit reaches its own device alone (44_gpu_render.md R330). -/
theorem onInit_reaches (k : DeviceKind) (i : Nat) (s : State) : Reaches i s (onInit k i s) := by
  cases k
  case gpu =>
    exact ((State.clearBytes_reaches s i _).trans (Reaches.ofGpu i _ _)).trans (State.runPass_reaches _ i _ _)
  all_goals exact Reaches.refl i s

theorem portRead_reaches (k : DeviceKind) (i off : Nat) (dbg : Bool) (s : State) :
    Reaches i s (portRead k i off dbg s) :=
  (devRead_reaches k i off dbg s).trans (State.respond_reaches _ i _)

theorem State.fanOut_onInit_cfg (s : State) : (s.fanOut onInit).cfg = s.cfg :=
  State.fanOut_induction (p := fun u => u.cfg = s.cfg) (fun k j u hu => (onInit_reaches k j u).cfg.trans hu) s rfl

/-- No operation changes a parameter. -/
theorem Effect.cfg {i : Instr} {s t : State} (h : Effect i s t) : t.cfg = s.cfg := by
  cases h with
  | run h => exact h.induction (p := fun u => u.cfg = s.cfg) rfl fun a k u _ hu => (a.run_cfg k u).trans hu
  | read d off dbg => exact (portRead_reaches d.kind s.target off dbg s).cfg
  | write d off v dbg => exact (devWrite_reaches d.kind s.target off v dbg s).cfg
  | attach size => rfl
  | overflow => rfl
  | init => exact s.fanOut_onInit_cfg
  | shutdown => rfl

/-- No step changes a parameter. -/
theorem step_cfg {s t : State} (h : step s = .next t) : t.cfg = s.cfg :=
  step_induction (p := fun u => u.cfg = s.cfg) h (fun _ _ => rfl) (fun _ _ => rfl)
    (fun _ _ _ hu he => (exec_effect he).cfg.trans hu) (fun a k u hu => (a.run_cfg k u).trans hu) (fun _ _ hu => hu)

/-! ## The devices -/

/-- No device of `s` is moved, resized or removed in `t`. -/
def DevicesStay (s t : State) : Prop :=
  ∀ (i : Nat) (d : Device), s.devs[i]? = some d → ∃ e, t.devs[i]? = some e ∧ e.kind = d.kind ∧ e.range = d.range

theorem SameDevices.stay {s t : State} (h : SameDevices s t) : DevicesStay s t := fun _ _ => h.getElem?

theorem DevicesStay.trans {s t u : State} (h : DevicesStay s t) (h' : DevicesStay t u) : DevicesStay s u := by
  intro i d hd
  obtain ⟨e, he, hk, hr⟩ := h i d hd
  obtain ⟨f, hf, hk', hr'⟩ := h' i e he
  exact ⟨f, hf, hk'.trans hk, hr'.trans hr⟩

theorem SameDevices.of_devs_eq {s t : State} (h : t.devs = s.devs) : SameDevices s t := by rw [SameDevices, h]

/-- An atomic step leaves the devices the same ones. -/
theorem AtomicStep.run_sameDevices (a : AtomicStep) (h : Byte) (s : State) : SameDevices s (a.run h s).2 := by
  cases a with
  | read a dbg => exact (busRead_reaches a dbg s).elim fun _ r => r.devices
  | readHigh a dbg => exact (busRead_reaches a dbg s).elim fun _ r => r.devices
  | readLow a dbg => exact (busRead_reaches a dbg s).elim fun _ r => r.devices
  | write a v dbg => exact (busWrite_reaches a v dbg s).elim fun _ r => r.devices
  | callback c k i =>
    obtain ⟨-, hdevs, -⟩ := c.run_keeps k i s
    exact .of_devs_eq hdevs
  | close c =>
    obtain ⟨-, hdevs, -⟩ := c.run_keeps s
    exact .of_devs_eq hdevs

theorem RunsTo.sameDevices {ok : AtomicStep → Prop} {s t : State} (h : RunsTo ok s t) : SameDevices s t :=
  h.induction (SameDevices.refl s) fun a k u _ hu => hu.trans (a.run_sameDevices k u)

theorem State.fanOut_onInit_sameDevices (s : State) : SameDevices s (s.fanOut onInit) :=
  State.fanOut_induction (fun k j u hu => hu.trans (onInit_reaches k j u).devices) s (SameDevices.refl s)

/-- ATTACH appends a device behind those that are there (40_bus.md R161). -/
theorem State.appendDevice_devicesStay (s : State) (k : DeviceKind) (n : Nat) : DevicesStay s (s.appendDevice k n) :=
  fun _ d hd => ⟨d, List.getElem?_append_left (List.getElem?_eq_some_iff.mp hd).1 ▸ hd, rfl, rfl⟩

/-- No operation moves, resizes or removes a device. -/
theorem Effect.devicesStay {i : Instr} {s t : State} (h : Effect i s t) : DevicesStay s t := by
  cases h with
  | run h => exact h.sameDevices.stay
  | read d off dbg => exact (portRead_reaches d.kind s.target off dbg s).devices.stay
  | write d off v dbg => exact (devWrite_reaches d.kind s.target off v dbg s).devices.stay
  | attach size => exact s.appendDevice_devicesStay _ size
  | overflow => exact (SameDevices.refl s).stay
  | init => exact s.fanOut_onInit_sameDevices.stay
  | shutdown => exact (SameDevices.refl s).stay

/-! ## The invariant over ATTACH -/

/-- The invariant speaks of the devices, the first free address and the GPU's internal state alone. -/
theorem State.Inv.congr {s t : State} (h : s.Inv) (hd : t.devs = s.devs) (hn : t.nextFree = s.nextFree)
    (hg : t.gpu = s.gpu) : t.Inv :=
  ⟨by rw [hd, hn]; exact h.layout, by rw [hn]; exact h.bound, by rw [hd]; exact h.devices, by rw [hg]; exact h.ext⟩

/-- A contiguous layout goes on with a device at its end. -/
theorem LayoutFrom.append {a e : Nat} {l : List Device} (h : LayoutFrom a l e) {d : Device} (hd : d.range.base = e) :
    LayoutFrom a (l ++ [d]) (e + d.range.size) := by
  induction l generalizing a with
  | nil =>
    obtain rfl : a = e := h
    exact ⟨hd, rfl⟩
  | cons c rest ih =>
    obtain ⟨hc, hr⟩ := h
    exact ⟨hc, ih hr⟩

/-- The draw of a device is canonical and inside its size (41_device.md R205). -/
theorem State.initialBacking_sound (s : State) (k : DeviceKind) (i n : Nat) :
    (s.initialBacking k i n).wf = true ∧ (s.initialBacking k i n).below n = true := by
  cases k
  case gpu => exact ⟨rfl, rfl⟩
  case sys => exact ⟨rfl, rfl⟩
  all_goals exact ⟨Memory.wf_ofCells _ _, Memory.below_ofCells _ _⟩

theorem State.Inv.appendDevice {s : State} (h : s.Inv) {k : DeviceKind} {n : Nat} (hfit : s.nextFree + n ≤ busSize)
    (hu : undersized k n = false) : (s.appendDevice k n).Inv := by
  refine ⟨h.layout.append rfl, hfit, fun d hd => ?_, h.ext⟩
  rcases List.mem_append.mp hd with hd | hd
  · exact h.devices d hd
  · obtain rfl := List.mem_singleton.mp hd
    have hsize := (undersized_iff k n).not.mp (by simp [hu])
    obtain ⟨hwf, hbelow⟩ := s.initialBacking_sound k s.devs.length n
    exact ⟨hwf, hbelow, fun hk => Nat.not_lt.mp fun hlt => hsize (.inl ⟨hk, hlt⟩),
      fun hk => Nat.not_lt.mp fun hlt => hsize (.inr ⟨hk, hlt⟩)⟩

/-! ## The invariant over INIT -/

/-- A fan-out calls the callback of each device with that device's kind. -/
theorem fanOutFrom_induction_kinds {callback : DeviceKind → Nat → State → State} {p : State → Prop}
    (ks : List DeviceKind) (i : Nat) (s : State) (h : p s)
    (step : ∀ j k u, ks[j]? = some k → p u → p (callback k (i + j) u)) : p (fanOutFrom callback ks i s) := by
  induction ks generalizing i s with
  | nil => exact h
  | cons k rest ih =>
    rw [fanOutFrom]
    split
    · exact h
    · refine ih (i + 1) _ (step 0 k s rfl h) fun j k' u hk hu => ?_
      rw [show i + 1 + j = i + (j + 1) by omega]
      exact step (j + 1) k' u hk hu

theorem State.fanOut_induction_devices {callback : DeviceKind → Nat → State → State} {p : State → Prop} (s : State)
    (h : p s) (step : ∀ j d u, s.devs[j]? = some d → p u → p (callback d.kind j u)) : p (s.fanOut callback) := by
  refine fanOutFrom_induction_kinds _ 0 s h fun j k u hk hu => ?_
  rw [List.getElem?_map, Option.map_eq_some_iff] at hk
  obtain ⟨d, hd, rfl⟩ := hk
  rw [Nat.zero_add]
  exact step j d u hd hu

theorem InvGpu.clearBytes {i : Nat} {s : State} (h : InvGpu i s) {offs : List Nat}
    (ho : ∀ off ∈ offs, off < gpuBlockSize) : InvGpu i (s.clearBytes i offs) := by
  induction offs generalizing s with
  | nil => exact h
  | cons off rest ih =>
    exact ih (h.setDevByte (ho off List.mem_cons_self) 0x00) fun o hm => ho o (List.mem_cons_of_mem _ hm)

theorem InvGpu.gpuInit {i : Nat} {s : State} (h : InvGpu i s) : InvGpu i (s.gpuInit i) := by
  have cleared : InvGpu i (s.clearBytes i initClearedOffsets) := h.clearBytes (by decide)
  refine InvGpu.runPass ?_ _ _
  exact cleared.ofGpu _ cleared.1.ext

theorem State.Inv.onInit {s : State} (h : s.Inv) {i : Nat} {d : Device} (hd : s.devs[i]? = some d) :
    (onInit d.kind i s).Inv := by
  cases hk : d.kind
  case gpu => exact (InvGpu.gpuInit ⟨h, d, hd, hk⟩).1
  all_goals exact h

/-- INIT's fan-out finds at each place the device it was called for, since OnInit moves none. -/
theorem State.Inv.fanOut_onInit {s : State} (h : s.Inv) : (s.fanOut Machine.onInit).Inv := by
  refine (State.fanOut_induction_devices (p := fun u => u.Inv ∧ SameDevices s u) s ⟨h, SameDevices.refl s⟩ ?_).1
  rintro j d u hd ⟨hu, hsame⟩
  obtain ⟨e, he, hk, -⟩ := hsame.getElem? hd
  rw [← hk]
  exact ⟨hu.onInit he, hsame.trans (onInit_reaches e.kind j u).devices⟩

/-! ## The invariant over every step -/

/-- Every operation keeps the layout and the canonical forms. -/
theorem Effect.inv {i : Instr} {s t : State} (h : Effect i s t) (hs : s.Inv) : t.Inv := by
  cases h with
  | run h => exact h.induction hs fun a k u _ hu => a.run_inv k u hu
  | read d off dbg hd => exact (hs.devRead hd dbg).congr rfl rfl rfl
  | write d off v dbg hd ho => exact hs.devWrite hd ((hs.sound hd).lt_size ho) v dbg
  | attach size hfit hu => exact hs.appendDevice hfit hu
  | overflow => exact hs.congr rfl rfl rfl
  | init => exact hs.fanOut_onInit.congr rfl rfl rfl
  | shutdown => exact hs.congr rfl rfl rfl

/-- Every step keeps the layout and the canonical forms, and leaves each device where it is. -/
theorem step_inv {s t : State} (hs : s.Inv) (h : step s = .next t) : t.Inv ∧ DevicesStay s t := by
  have same {u : State} (hd : u.devs = s.devs) : DevicesStay s u := (SameDevices.of_devs_eq hd).stay
  refine step_induction (p := fun u => u.Inv ∧ DevicesStay s u) h ?_ ?_ ?_ ?_ ?_
  · exact fun _ _ => ⟨hs.congr rfl rfl rfl, same rfl⟩
  · exact fun _ _ => ⟨hs.congr rfl rfl rfl, same rfl⟩
  · exact fun i u v ⟨hu, hd⟩ he => ⟨(exec_effect he).inv hu, hd.trans (exec_effect he).devicesStay⟩
  · exact fun a k u ⟨hu, hd⟩ => ⟨a.run_inv k u hu, hd.trans (a.run_sameDevices k u).stay⟩
  · exact fun u q ⟨hu, hd⟩ => ⟨hu.congr rfl rfl rfl, hd⟩

/-- Settles O58, from what each form of an operation and each atomic step keeps, by `step_induction`. -/
theorem stepKeepsLayout : Obligations.StepKeepsLayout :=
  ⟨fun _ _ h => step_cfg h, fun _ _ hs h => step_inv hs h⟩

end Sys2Proof.Machine
end

section
/-! PROOFS. Who writes `gpu.acc` and `gpu.dec`: the decode pass, and GPU_OPTIONS the window (10_state.md R45, R46;
42_gpu_registers.md R235). -/

namespace Sys2Proof.Machine

/-! ## What keeps the decoded display state -/

theorem DecodeKept.of_gpu_eq {s t : State} (h : t.gpu = s.gpu) : DecodeKept s t := by
  rw [DecodeKept, h]
  exact ⟨rfl, rfl, rfl⟩

/-- The decoded display state is as before but for the window, and the window too where `window` holds. -/
def DecodeKeptIf (window : Prop) (s t : State) : Prop := DecodeKeptButWindow s t ∧ (window → DecodeKept s t)

theorem DecodeKept.keptIf {s t : State} (h : DecodeKept s t) (window : Prop) : DecodeKeptIf window s t :=
  ⟨h.butWindow, fun _ => h⟩

theorem DecodeKeptIf.trans {w : Prop} {s t u : State} (h : DecodeKeptIf w s t) (h' : DecodeKeptIf w t u) :
    DecodeKeptIf w s u :=
  ⟨h.1.trans h'.1, fun hw => (h.2 hw).trans (h'.2 hw)⟩

theorem DecodeKeptIf.mono {w w' : Prop} {s t : State} (h : DecodeKeptIf w s t) (hw : w' → w) : DecodeKeptIf w' s t :=
  ⟨h.1, fun k => h.2 (hw k)⟩

/-- A read at a device keeps the decoded display state. -/
theorem devRead_decode (k : DeviceKind) (i off : Nat) (dbg : Bool) (s : State) :
    DecodeKept s (devRead k i off dbg s).2 := by
  unfold devRead
  cases dbg
  case true => exact DecodeKept.refl s
  case false =>
    rw [if_neg (by decide)]
    cases k
    case gpu =>
      dsimp only
      unfold gpuRead
      split <;> exact ⟨rfl, rfl, rfl⟩
    all_goals exact ⟨rfl, rfl, rfl⟩

/-- A debug write of the bus keeps it, wherever it falls (41_device.md R204). -/
theorem busWrite_debug_decode (a : Word) (v : Byte) (s : State) : DecodeKept s (busWrite a v true s) := by
  have hgpu := congrArg State.gpu (busWrite_debug a v s).1
  exact .of_gpu_eq hgpu

/-! ## The addresses of a GPU's bytes -/

/-- The addresses of the GPUs' bytes are the same where the devices are. -/
theorem SameDevices.atGpuByte {s t : State} (h : SameDevices s t) {a : Word} {off : Nat} (ha : t.AtGpuByte a off) :
    s.AtGpuByte a off := by
  obtain ⟨i, d, ⟨hd, hlo, hhi⟩, hk, e⟩ := ha
  obtain ⟨c, hc, hkind, hrange⟩ := SameDevices.getElem? (s := t) (t := s) h.symm hd
  exact ⟨i, c, ⟨hc, hrange ▸ hlo, hrange ▸ hhi⟩, hkind.trans hk, hrange ▸ e⟩

/-- An operation writes no GPU's byte at an offset, by normal writes of the bus. -/
def State.Misses (s : State) (i : Instr) (off : Nat) : Prop := ∀ a ∈ s.written i, ¬ s.AtGpuByte a off

/-! ## Atomic steps, rows and operations -/

/-- An atomic step of an operation that misses the GPUs' bytes 0x00 and 0x01 keeps the decoded display state but for
the window, and the window where the operation misses byte 0x02. -/
theorem AtomicStep.run_decode {s u : State} {i : Instr} (h0 : s.Misses i 0x00) (h1 : s.Misses i 0x01)
    (hsame : SameDevices s u) {a : AtomicStep} (ha : s.MayTake i a) (k : Byte) :
    DecodeKeptIf (s.Misses i 0x02) u (a.run k u).2 := by
  cases a with
  | read a dbg => exact (busRead_decode a dbg u).keptIf _
  | readHigh a dbg => exact (busRead_decode a dbg u).keptIf _
  | readLow a dbg => exact (busRead_decode a dbg u).keptIf _
  | write a v dbg =>
    cases dbg
    case true => exact (busWrite_debug_decode a v u).keptIf _
    case false =>
      have miss {off : Nat} (h : s.Misses i off) : ¬ u.AtGpuByte a off := fun hu => h a ha (hsame.atGpuByte hu)
      obtain ⟨window, all⟩ := busWrite_decode ⟨miss h0, miss h1⟩ v
      exact ⟨window, fun h2 => all (miss h2)⟩
  | callback c d j =>
    obtain ⟨-, -, hgpu, -⟩ := c.run_keeps d j u
    exact (DecodeKept.of_gpu_eq hgpu).keptIf _
  | close c =>
    obtain ⟨-, -, hgpu, -⟩ := c.run_keeps u
    exact (DecodeKept.of_gpu_eq hgpu).keptIf _

theorem RunsTo.decode {s t : State} {i : Instr} (h : RunsTo (s.MayTake i) s t) (h0 : s.Misses i 0x00)
    (h1 : s.Misses i 0x01) : DecodeKeptIf (s.Misses i 0x02) s t := by
  refine (h.induction (p := fun u => SameDevices s u ∧ DecodeKeptIf (s.Misses i 0x02) s u)
    ⟨SameDevices.refl s, (DecodeKept.refl s).keptIf _⟩ ?_).2
  rintro a k u ha ⟨hsame, hu⟩
  exact ⟨hsame.trans (a.run_sameDevices k u), hu.trans (AtomicStep.run_decode h0 h1 hsame ha k)⟩

/-- A write at a device's port by a row other than those of GPU_MODE and GPU_RES keeps the decoded display state but
for the window, and the window where the row is not that of GPU_OPTIONS. -/
theorem devWrite_row_decode {i : Instr} (hmode : ∀ v, i ≠ .wrGpuMode v) (hres : ∀ v, i ≠ .wrGpuRes v)
    {k : DeviceKind} {off : Nat} {dbg : Bool} (hrow : k = .gpu → dbg = false → DecodeRow i off) (j : Nat) (v : Byte)
    (s : State) : DecodeKeptIf (∀ v, i ≠ .wrGpuOptions v) s (devWrite k j off v dbg s) := by
  by_cases hk : k ≠ .gpu ∨ dbg = true
  · exact (devWrite_decode k j off v dbg s hk).keptIf _
  · simp only [not_or, not_not, Bool.not_eq_true] at hk
    obtain ⟨rfl, rfl⟩ := hk
    obtain ⟨row0, row1, row2⟩ := hrow rfl rfl
    have ne0 : off ≠ 0x00 := fun e => (row0 e).elim hmode
    have ne1 : off ≠ 0x01 := fun e => (row1 e).elim hres
    exact DecodeKeptIf.mono (gpuWrite_decode j (by omega) v s) fun hopt e => (row2 e).elim hopt

/-- An operation that is no INIT, no write of GPU_MODE or GPU_RES, and whose writes miss those bytes keeps the decoded
display state but for the window, and the window where it neither is a write of GPU_OPTIONS nor hits that byte. -/
theorem Effect.decode {i : Instr} {s t : State} (h : Effect i s t) (hinit : i ≠ .init)
    (hmode : ∀ v, i ≠ .wrGpuMode v) (hres : ∀ v, i ≠ .wrGpuRes v) (h0 : s.Misses i 0x00) (h1 : s.Misses i 0x01) :
    DecodeKeptIf ((∀ v, i ≠ .wrGpuOptions v) ∧ s.Misses i 0x02) s t := by
  cases h with
  | run h => exact (h.decode h0 h1).mono And.right
  | read d off dbg hd =>
    exact ((devRead_decode d.kind s.target off dbg s).trans (.of_gpu_eq rfl)).keptIf _
  | write d off v dbg hd ho hdbg hrow => exact (devWrite_row_decode hmode hres hrow s.target v s).mono And.left
  | attach size => exact (DecodeKept.of_gpu_eq rfl).keptIf _
  | overflow => exact (DecodeKept.of_gpu_eq rfl).keptIf _
  | init hi => exact absurd hi hinit
  | shutdown => exact (DecodeKept.of_gpu_eq rfl).keptIf _

/-- Settles O57, from what each form of an operation leaves of the decoded display state. -/
theorem decodeStateHasOneWriter : Obligations.DecodeStateHasOneWriter := by
  intro i s t h hi hw
  have hinit : i ≠ .init := by rintro rfl; exact hi
  have hmode : ∀ v, i ≠ .wrGpuMode v := by rintro v rfl; exact hi
  have hres : ∀ v, i ≠ .wrGpuRes v := by rintro v rfl; exact hi
  obtain ⟨window, all⟩ := (exec_effect h).decode hinit hmode hres (fun a ha => (hw a ha).1) (fun a ha => (hw a ha).2)
  exact ⟨window, fun hopt h2 => all ⟨hopt, h2⟩⟩

end Sys2Proof.Machine
end

section
/-! PROOFS. How the block takes the next entry of its inbox: a request whole, a request by its first atomic step, the
next atomic step of an operation in progress (20_memory.md R102; logs 2, 10 and 23). -/

namespace Sys2Proof.Machine

/-! ## Which entry is next -/

/-- Where a request takes the next step, it is at the head of the inbox and nothing goes before it. -/
theorem State.nextEntries_request {s : State} {r : Request} {rest : List Entry}
    (h : s.nextEntries = .request r :: rest) :
    s.inbox = .request r :: rest ∧ ∀ i, s.decodeRequest r = .ok i → s.Free i := by
  unfold State.nextEntries at h
  split at h
  · next r' rest' hin =>
    split at h
    · next i hd =>
      split at h
      · cases h
      · next hn =>
        obtain ⟨rfl, rfl⟩ : r' = r ∧ rest' = rest := by simpa using h
        refine ⟨hin, fun j hj o ho hb => ?_⟩
        obtain rfl : i = j := by simpa [hd] using hj
        have hrest : Entry.resume o ∈ rest' := by simpa [hin] using ho
        exact Bool.eq_false_iff.mp ((s.holder_eq_none i rest').mp hn o hrest) ((s.goesBefore_iff o i).mp hb)
    · next e hd =>
      obtain ⟨rfl, rfl⟩ : r' = r ∧ rest' = rest := by simpa using h
      exact ⟨hin, fun j hj => by simp [hd] at hj⟩
  · next hne => exact absurd h (hne r rest)

/-- The first operation in progress that goes before the request at the head of the inbox takes the next step. -/
theorem State.nextEntries_held {s : State} {r : Request} {pre post : List Entry} {o : Ongoing} {i : Instr}
    (h : s.inbox = .request r :: (pre ++ .resume o :: post)) (hd : s.decodeRequest r = .ok i)
    (hb : s.GoesBefore o i) (hp : ∀ x, Entry.resume x ∈ pre → ¬ s.GoesBefore x i) :
    s.nextEntries = .resume o :: .request r :: (pre ++ post) := by
  have hholder : s.holder i (pre ++ .resume o :: post) = some (o, pre ++ post) :=
    State.holder_append ((s.goesBefore_iff o i).mp hb) fun x hx =>
      Bool.eq_false_iff.mpr fun hu => hp x hx ((s.goesBefore_iff x i).mpr hu)
  simp [State.nextEntries, h, hd, hholder]

/-! ## The step of each entry -/

theorem step_of_resume {s : State} {o : Ongoing} {rest : List Entry} (h : s.nextEntries = .resume o :: rest) :
    step s = s.goOn o rest := by
  simp only [step, h]

theorem step_of_whole {s : State} {r : Request} {rest : List Entry} {i : Instr}
    (h : s.nextEntries = .request r :: rest) (hd : s.decodeRequest r = .ok i)
    (hw : (s.latch r rest).divided r i = none) : step s = exec i (s.latch r rest) := by
  simp only [step, h, hd, hw]

theorem step_of_divided {s : State} {r : Request} {rest : List Entry} {i : Instr} {o : Ongoing}
    (h : s.nextEntries = .request r :: rest) (hd : s.decodeRequest r = .ok i)
    (ho : (s.latch r rest).divided r i = some o) : step s = (s.latch r rest).begin i o := by
  simp only [step, h, hd, ho]

/-- The operations that are taken apart are those that claims call divided. -/
theorem State.atomicSteps_eq_none_iff (s : State) (i : Instr) : s.atomicSteps i = none ↔ ¬ IsDivided i := by
  cases i
  case rdw | wrw | rdwD | wrwD | quit | activate | deactivate | event | update | render | tick | load =>
    exact iff_of_false (Option.some_ne_none _) (fun h => h trivial)
  all_goals exact iff_of_true rfl (fun h => h)

/-- A request that does not split its operation, or whose operation is one atomic step, runs whole. -/
theorem State.divided_eq_none {s : State} {r : Request} {i : Instr} (h : r.split = [] ∨ ¬ IsDivided i) :
    s.divided r i = none := by
  rcases h with h | h
  · simp [State.divided, h]
  · rw [State.divided, (s.atomicSteps_eq_none_iff i).mpr h]
    cases r.split <;> rfl

/-- A request that splits its operation begins it with all of its atomic steps to come. -/
theorem State.divided_eq_some {s : State} {r : Request} {i : Instr} {o : Ongoing} :
    s.divided r i = some o ↔ ∃ n gaps steps, r.split = n :: gaps ∧ s.atomicSteps i = some steps ∧
      o = { op := i, steps := steps, held := 0, beside := r.beside, split := n :: gaps } := by
  unfold State.divided
  split
  · next n gaps steps hsplit hsteps => simp [hsplit, hsteps, eq_comm]
  · next hne =>
    simp only [reduceCtorEq, false_iff]
    rintro ⟨n, gaps, steps, hsplit, hsteps, -⟩
    exact hne _ _ _ hsplit hsteps

/-- Settles O5: without what goes before it, a request that is not taken apart runs on the state that took it. -/
theorem stepRunsDecoded : Obligations.StepRunsDecoded := by
  intro s r rest i hin hd
  refine ⟨fun hfree hwhole => ?_, fun pre post o hrest hb hp => ?_⟩
  · refine ⟨s.latch r rest, ?_, rfl, rfl, rfl, ?_, rfl⟩
    · exact step_of_whole (State.nextEntries_free hin hd hfree) hd (State.divided_eq_none hwhole)
    · rw [State.latch_target]
      cases r.port <;> rfl
  · have hnext := State.nextEntries_held (hrest ▸ hin) hd hb hp
    rw [step_of_resume hnext, step_of_resume (State.nextEntries_resume rfl)]
    rfl

/-! ## One atomic step of an operation -/

/-- What is left of an operation is put back unless a fatal error ended it or nothing is left. -/
theorem State.unlessFatal_postpone (t : State) (n : Nat) (o : Ongoing) :
    t.unlessFatal (fun u => u.postpone n o) = PutBack t n o := by
  cases hf : t.fault with
  | some _ => rw [State.unlessFatal_some hf, PutBack, if_neg (by simp [hf])]
  | none =>
    rw [State.unlessFatal_none hf, State.postpone]
    cases hs : o.steps with
    | nil => rw [PutBack, if_neg (by simp [hs])]
    | cons a rest => rw [PutBack, if_pos (by simp [hf, hs])]

/-- An operation whose `split` goes on takes its next atomic step, and the rest is put back. -/
theorem State.advance_cons {s : State} {o : Ongoing} {n : Nat} {gaps : List Nat} {a : AtomicStep}
    {steps : List AtomicStep} (hsplit : o.split = n :: gaps) (hsteps : o.steps = a :: steps) :
    s.advance o = PutBack (a.run o.held s).2 n
      { op := o.op, steps := steps, held := (a.run o.held s).1, beside := o.beside, split := gaps } := by
  rw [State.advance, hsplit, hsteps]
  exact State.unlessFatal_postpone _ _ _

/-- An operation whose `split` is used up runs all that is left of it. -/
theorem State.advance_nil {s : State} {o : Ongoing} (hsplit : o.split = []) :
    s.advance o = runSteps o.steps o.held s := by
  rw [State.advance, hsplit]

/-- An operation of which nothing is left does nothing more. -/
theorem State.advance_done {s : State} {o : Ongoing} (hsteps : o.steps = []) : s.advance o = s := by
  cases hsplit : o.split with
  | nil => rw [State.advance_nil hsplit, hsteps, runSteps_nil]
  | cons n gaps => rw [State.advance, hsplit, hsteps]

/-- The last atomic step of an operation ends it, whatever its `split` says. -/
theorem State.advance_last {s : State} {o : Ongoing} {a : AtomicStep} (hsteps : o.steps = [a]) :
    s.advance o = (a.run o.held s).2 := by
  cases hsplit : o.split with
  | nil =>
    rw [State.advance_nil hsplit, hsteps, runSteps_cons]
    unfold State.unlessFatal
    split <;> rfl
  | cons n gaps => rw [State.advance_cons hsplit hsteps, PutBack, if_neg (by simp)]

/-- A requester's word leaves the target as it was. -/
theorem State.latch_requester {s : State} {r : Request} (hp : r.port = .requester) (rest : List Entry) :
    s.latch r rest = { s with inbox := rest, beside := r.beside, resp := [] } := by
  simp only [State.latch, hp, RequestPort.targetOr]

/-- A split request takes the first atomic step of its operation. -/
theorem step_of_split {s u : State} {r : Request} {rest : List Entry} {i : Instr} {n : Nat} {gaps : List Nat}
    {a : AtomicStep} {steps : List AtomicStep} (hin : s.inbox = .request r :: rest) (hp : r.port = .requester)
    (hd : s.decodeRequest r = .ok i) (hsplit : r.split = n :: gaps) (hfree : s.Free i)
    (hu : u = { s with inbox := rest, beside := r.beside, resp := [] }) (hadm : u.Admits i)
    (hsteps : u.atomicSteps i = some (a :: steps)) :
    step s = .next (PutBack (a.run 0 u).2 n
      { op := i, steps := steps, held := (a.run 0 u).1, beside := r.beside, split := gaps }) := by
  rw [← State.latch_requester hp] at hu
  subst hu
  have hdiv := State.divided_eq_some.mpr ⟨n, gaps, a :: steps, hsplit, hsteps, rfl⟩
  obtain ⟨hf, hrow⟩ := (State.admits_iff _ i).mp hadm
  rw [step_of_divided (State.nextEntries_free hin hd hfree) hd hdiv, State.begin, State.admit_open hf hrow]
  exact congrArg _ (State.advance_cons rfl rfl)

/-- An operation in progress at the head of the inbox goes on. -/
theorem step_of_goesOn {s u : State} {o : Ongoing} {rest : List Entry} (hin : s.inbox = .resume o :: rest)
    (hgo : s.GoesOn o.op) (hu : u = { s with inbox := rest, beside := o.beside, resp := [] }) :
    step s = .next (u.advance o) := by
  obtain ⟨hf, hrow⟩ := (s.goesOn_iff o.op).mp hgo
  rw [step_of_resume (State.nextEntries_resume hin), State.goOn, State.admit_open hf hrow, hu]
  rfl

end Sys2Proof.Machine
end

section
/-! PROOFS. An operation that is taken apart is its atomic steps one after the other (20_memory.md R91, R102, R108;
40_bus.md R172 to R182; 47_boot_image.md R381). -/

namespace Sys2Proof.Machine

/-! ## Runs of atomic steps -/

/-- A run whose first part ends in a fatal error ends there, and goes on with its second part otherwise. -/
theorem runSteps_append_unlessFatal (x y : List AtomicStep) (h : Byte) {s : State} (hs : s.fault = none) :
    ∃ k, runSteps (x ++ y) h s = (runSteps x h s).unlessFatal (runSteps y k) := by
  induction x generalizing h s with
  | nil => exact ⟨h, (State.unlessFatal_none hs _).symm⟩
  | cons a rest ih =>
    rw [List.cons_append, runSteps_cons, runSteps_cons]
    cases hf : (a.run h s).2.fault with
    | some r => exact ⟨h, by rw [State.unlessFatal_some hf, State.unlessFatal_some hf, State.unlessFatal_some hf]⟩
    | none =>
      rw [State.unlessFatal_none hf, State.unlessFatal_none hf]
      exact ih _ hf

/-- A run of one atomic step. -/
theorem runSteps_singleton (a : AtomicStep) (h : Byte) (s : State) : runSteps [a] h s = (a.run h s).2 := by
  rw [runSteps_cons]
  unfold State.unlessFatal
  split <;> rfl

/-! ## Fan-outs (40_bus.md R182) -/

/-- A fatal error ends a fan-out at once (60_exceptions.md R401). -/
theorem fanOutFrom_of_fault {callback : DeviceKind → Nat → State → State} {s : State} {r : FatalReason}
    (h : s.fault = some r) (ks : List DeviceKind) (i : Nat) : fanOutFrom callback ks i s = s := by
  cases ks with
  | nil => rfl
  | cons k rest => simp only [fanOutFrom, h]

/-- The callbacks of some devices one after the other are their fan-out. -/
theorem runSteps_callbacks (c : Callback) (ks : List DeviceKind) (i : Nat) (h : Byte) {s : State}
    (hs : s.fault = none) :
    runSteps ((ks.zipIdx i).map fun d => .callback c d.1 d.2) h s = fanOutFrom c.run ks i s := by
  induction ks generalizing i s with
  | nil => rfl
  | cons k rest ih =>
    have hstep : (AtomicStep.callback c k i).run h s = (h, c.run k i s) := rfl
    have hfan : fanOutFrom c.run (k :: rest) i s = fanOutFrom c.run rest (i + 1) (c.run k i s) := by
      simp only [fanOutFrom, hs]
    rw [List.zipIdx_cons, List.map_cons, runSteps_cons, hstep, hfan]
    cases hf : (c.run k i s).fault with
    | some r => rw [State.unlessFatal_some hf, fanOutFrom_of_fault hf]
    | none => rw [State.unlessFatal_none hf, ih (i + 1) hf]

theorem runSteps_fanSteps (c : Callback) (h : Byte) {s : State} (hs : s.fault = none) :
    runSteps (s.fanSteps c) h s = s.fanOut c.run := runSteps_callbacks c _ 0 h hs

/-- The atomic steps of a fan-out depend on the kinds of the devices alone. -/
theorem State.fanSteps_congr {s t : State} (h : t.devs.map (·.kind) = s.devs.map (·.kind)) (c : Callback) :
    t.fanSteps c = s.fanSteps c := by rw [State.fanSteps, State.fanSteps, h]

/-- A fan-out of these callbacks leaves the devices as they are. -/
theorem State.fanOut_devs (s : State) (c : Callback) : (s.fanOut c.run).devs = s.devs :=
  State.fanOut_induction (p := fun u => u.devs = s.devs)
    (fun k i u hu => by obtain ⟨-, hdevs, -⟩ := c.run_keeps k i u; exact hdevs.trans hu) s rfl

theorem State.fanOut_deactivate (s : State) : s.fanOut onDeactivate = s := State.fanOut_noop (fun _ _ _ => rfl) s
theorem State.fanOut_quit (s : State) : s.fanOut onQuit = s := State.fanOut_noop (fun _ _ _ => rfl) s

/-- UPDATE's rebuild is its atomic steps. -/
theorem runSteps_rebuildSteps (h : Byte) {s : State} (hs : s.fault = none) :
    runSteps s.rebuildSteps h s = s.rebuild := by
  unfold State.rebuildSteps State.rebuild
  split_ifs
  · obtain ⟨k, hclear⟩ := runSteps_append_unlessFatal (s.fanSteps .deactivate ++ s.fanSteps .activate)
      [.close .clearDirty] h hs
    obtain ⟨j, hcycle⟩ := runSteps_append_unlessFatal (s.fanSteps .deactivate) (s.fanSteps .activate) h hs
    have hdeactivate : runSteps (s.fanSteps .deactivate) h s = s.fanOut onDeactivate := runSteps_fanSteps _ h hs
    have hactivate : runSteps (s.fanSteps .activate) j s = s.fanOut onActivate := runSteps_fanSteps _ j hs
    rw [hdeactivate, s.fanOut_deactivate, State.unlessFatal_none hs, hactivate] at hcycle
    rw [hclear, hcycle, s.fanOut_deactivate]
    exact congrArg _ (funext fun u => runSteps_singleton (.close .clearDirty) k u)
  · rfl

theorem State.rebuild_devs (s : State) : s.rebuild.devs = s.devs := by
  unfold State.rebuild
  split_ifs
  · have hfan : ((s.fanOut onDeactivate).fanOut onActivate).devs = s.devs := by
      rw [s.fanOut_deactivate]
      exact s.fanOut_devs .activate
    exact State.unlessFatal_induction (p := fun u => u.devs = s.devs) hfan hfan
  · rfl

/-! ## The CPU step and the loader (40_bus.md R175; 47_boot_image.md R381) -/

theorem busRead_fault (a : Word) (dbg : Bool) (s : State) : (busRead a dbg s).2.fault = s.fault :=
  (busRead_reaches a dbg s).elim fun _ r => r.fault

theorem busWrite_fault (a : Word) (v : Byte) (dbg : Bool) (s : State) : (busWrite a v dbg s).fault = s.fault :=
  (busWrite_reaches a v dbg s).elim fun _ r => r.fault

/-- The two steps of a word read are the word read. -/
theorem runSteps_readSteps (a : Word) (dbg : Bool) (h : Byte) {s : State} (hs : s.fault = none) :
    runSteps (readSteps a dbg) h s = busReadWord a dbg s := by
  have hf : ((AtomicStep.readHigh a dbg).run h s).2.fault = none := (busRead_fault a dbg s).trans hs
  rw [readSteps, runSteps_cons, State.unlessFatal_none hf, runSteps_singleton]
  rfl

/-- The two steps of a word write are the word write. -/
theorem runSteps_writeSteps (a w : Word) (dbg : Bool) (h : Byte) {s : State} (hs : s.fault = none) :
    runSteps (writeSteps a w dbg) h s = busWriteWord a w dbg s := by
  have hf : ((AtomicStep.write a (hi8 w) dbg).run h s).2.fault = none := (busWrite_fault a _ dbg s).trans hs
  rw [writeSteps, runSteps_cons, State.unlessFatal_none hf, runSteps_singleton]
  rfl

/-- The steps of a transaction of the CPU core are the transaction. -/
theorem runSteps_cpuTransaction (c : CpuTransaction) (h : Byte) {s : State} (hs : s.fault = none) :
    runSteps c.steps h s = cpuTransaction c s := by
  cases c with
  | rd a => exact runSteps_singleton (.read a false) h s
  | wr a v => exact runSteps_singleton (.write a v false) h s
  | rdw a => exact runSteps_readSteps a false h hs
  | wrw a w => exact runSteps_writeSteps a w false h hs

theorem cpuTransaction_fault (c : CpuTransaction) (s : State) : (cpuTransaction c s).fault = s.fault := by
  cases c with
  | rd a => exact busRead_fault a false s
  | wr a v => exact busWrite_fault a v false s
  | rdw a => exact (busRead_fault (a + 1) false _).trans (busRead_fault a false s)
  | wrw a w => exact (busWrite_fault (a + 1) _ false _).trans (busWrite_fault a _ false s)

/-- The steps of a CPU step's transactions, in order, are the CPU step. -/
theorem runSteps_cpuStep (l : List CpuTransaction) (h : Byte) {s : State} (hs : s.fault = none) :
    runSteps (l.flatMap CpuTransaction.steps) h s = cpuStep l s ∧ (cpuStep l s).fault = none := by
  induction l generalizing h s with
  | nil => exact ⟨rfl, hs⟩
  | cons c rest ih =>
    have hf : (cpuTransaction c s).fault = none := (cpuTransaction_fault c s).trans hs
    obtain ⟨k, happend⟩ := runSteps_append_unlessFatal c.steps (rest.flatMap CpuTransaction.steps) h hs
    obtain ⟨hrest, hfault⟩ := ih k hf
    rw [runSteps_cpuTransaction c h hs, State.unlessFatal_none hf, hrest] at happend
    exact ⟨happend, hfault⟩

/-- The debug writes of some bytes, in order, are the loader's writes. -/
theorem runSteps_writeBytes (l : List (Word × Byte)) (h : Byte) {s : State} (hs : s.fault = none) :
    runSteps (l.map fun w => .write w.1 w.2 true) h s = writeBytes l s := by
  induction l generalizing s with
  | nil => rfl
  | cons w rest ih =>
    have hf : (busWrite w.1 w.2 true s).fault = none := (busWrite_fault _ _ true s).trans hs
    have hstep : (AtomicStep.write w.1 w.2 true).run h s = (h, busWrite w.1 w.2 true s) := rfl
    rw [List.map_cons, runSteps_cons, hstep, State.unlessFatal_none hf, ih hf, writeBytes_cons]

/-! ## Operations -/

/-- An operation that runs wherever its row of the admission table holds (70_reset_and_hazards.md R447). -/
theorem State.Admits.whenAdmitted {s : State} {i : Instr} (h : s.Admits i) {ok : Bool}
    (hok : (admission i).holds s.phase s.running = ok) (act : Host.Outcome State Fault Refusal) :
    s.whenAdmitted ok act = act := by
  obtain ⟨hf, hrow⟩ := (s.admits_iff i).mp h
  exact State.admit_open hf (hok ▸ hrow) act

/-- Where it is admitted, an operation that is taken apart is its atomic steps one after the other. -/
theorem exec_eq_runSteps {i : Instr} {s : State} {steps : List AtomicStep} (hadm : s.Admits i)
    (hsteps : s.atomicSteps i = some steps) (h : Byte) : exec i s = .next (runSteps steps h s) := by
  have hs : s.fault = none := hadm.1
  cases i
  case rdw | rdwD =>
    cases hsteps
    rw [runSteps_readSteps _ _ h hs]
    exact hadm.whenAdmitted rfl _
  case wrw | wrwD =>
    cases hsteps
    rw [runSteps_writeSteps _ _ _ h hs]
    exact hadm.whenAdmitted rfl _
  case quit =>
    cases hsteps
    obtain ⟨k, happend⟩ := runSteps_append_unlessFatal (s.fanSteps .quit) [.close .finish] h hs
    have hfan : runSteps (s.fanSteps .quit) h s = s.fanOut onQuit := runSteps_fanSteps _ h hs
    rw [happend, hfan, s.fanOut_quit, State.unlessFatal_none hs, runSteps_singleton]
    exact (hadm.whenAdmitted rfl _).trans (by rw [s.fanOut_quit]; rfl)
  case activate =>
    cases hsteps
    obtain ⟨k, happend⟩ := runSteps_append_unlessFatal (s.fanSteps .activate) [.close .enterRun] h hs
    rw [happend, runSteps_fanSteps _ h hs, funext (runSteps_singleton (.close .enterRun) k)]
    exact hadm.whenAdmitted rfl _
  case deactivate | event | render =>
    cases hsteps
    rw [runSteps_fanSteps _ h hs]
    exact hadm.whenAdmitted rfl _
  case update dt =>
    cases hsteps
    obtain ⟨k, happend⟩ := runSteps_append_unlessFatal s.rebuildSteps (s.fanSteps (.update dt)) h hs
    rw [happend, runSteps_rebuildSteps h hs]
    refine (hadm.whenAdmitted rfl _).trans (congrArg _ ?_)
    cases hf : s.rebuild.fault with
    | some r => rw [State.unlessFatal_some hf, State.unlessFatal_some hf]
    | none =>
      have hkinds : s.rebuild.devs.map (·.kind) = s.devs.map (·.kind) := by rw [s.rebuild_devs]
      rw [State.unlessFatal_none hf, State.unlessFatal_none hf, ← State.fanSteps_congr hkinds, runSteps_fanSteps _ k hf]
      rfl
  case tick =>
    cases hsteps
    obtain ⟨k, happend⟩ := runSteps_append_unlessFatal (s.beside.cpu.flatMap CpuTransaction.steps)
      [.close (.interval s.beside.interval)] h hs
    obtain ⟨hcpu, hf⟩ := runSteps_cpuStep s.beside.cpu h hs
    rw [happend, hcpu, State.unlessFatal_none hf, runSteps_singleton]
    exact hadm.whenAdmitted rfl _
  case load =>
    cases hsteps
    rw [runSteps_writeBytes _ h hs]
    exact hadm.whenAdmitted rfl _
  all_goals cases hsteps

/-! ## The statements -/

/-- A fan-out's atomic steps, device by device. -/
theorem State.fanSteps_eq_zipWith (s : State) {kinds : List DeviceKind} (hk : kinds = s.devs.map (·.kind))
    (c : Callback) :
    s.fanSteps c = (List.range kinds.length).zipWith (fun i k => AtomicStep.callback c k i) kinds := by
  rw [State.fanSteps, ← hk]
  refine List.ext_getElem (by simp) fun n hn hm => ?_
  simp

/-- A byte transaction, normal or debug, where the bus is open. -/
theorem State.BusOpen.exec_byte {s : State} (hs : s.BusOpen) (a : Word) (v : Byte) (dbg : Bool) :
    exec (if dbg then .rdD a else .rd a) s = .next (busReadByte a dbg s) ∧
      exec (if dbg then .wrD a v else .wr a v) s = .next (busWrite a v dbg s) := by
  cases dbg
  · exact ⟨hs.whenAdmitted _, hs.whenAdmitted _⟩
  · exact ⟨hs.whenAdmitted _, hs.whenAdmitted _⟩

theorem Callback.run_eq_self {c : Callback} {k : DeviceKind} (hk : k = .gpu → c ≠ .activate ∧ c ≠ .render) (j : Nat)
    (s : State) : c.run k j s = s := by
  cases c
  case activate =>
    cases k
    case gpu => exact absurd rfl (hk rfl).1
    all_goals rfl
  case render =>
    cases k
    case gpu => exact absurd rfl (hk rfl).2
    all_goals rfl
  all_goals rfl

theorem SurfaceResults.ok_iff (s : State) : s.beside.surfaces.ok = true ↔ s.SurfacesCreated := by
  simp [SurfaceResults.ok, State.SurfacesCreated, and_assoc]

theorem onActivate_gpu (j : Nat) (s : State) :
    (s.SurfacesCreated → onActivate .gpu j s = s) ∧
      (¬ s.SurfacesCreated → onActivate .gpu j s = { s with fault := some .surfaceFailure }) := by
  rw [← SurfaceResults.ok_iff]
  exact ⟨fun h => if_pos h, fun h => if_neg h⟩

/-- Settles O7: whole operations by `exec_eq_runSteps`, the atomic steps of each by the lists above, split ones by
`step_of_split` and `step_of_goesOn`. -/
theorem dividedOperations : Obligations.DividedOperations := by
  refine ⟨fun i s => ⟨s.atomicSteps_eq_none_iff i, fun steps h hadm hsteps => exec_eq_runSteps hadm hsteps h⟩, ?fans,
    ?transactions, ?texts, ?bytes, fun s k j h c hk => Callback.run_eq_self hk j s, ?closings,
    fun s u r rest i n gaps a steps hin hp hd hsplit hfree hu => step_of_split hin hp hd hsplit hfree hu, ?goesOn⟩
  case fans =>
    intro s dt kinds hk
    simp only [State.atomicSteps_update, State.atomicSteps_activate, State.atomicSteps_deactivate,
      State.atomicSteps_render, State.atomicSteps_event, State.atomicSteps_quit, State.rebuildSteps,
      s.fanSteps_eq_zipWith hk, and_self]
  case transactions =>
    intro s a w
    refine ⟨rfl, rfl, rfl, rfl, ?_⟩
    rw [State.atomicSteps_tick, List.flatMap_def]
    refine congrArg (fun l => some (l.flatten ++ _)) (List.map_congr_left fun c _ => ?_)
    cases c <;> rfl
  case texts =>
    intro s
    refine ⟨fun hw => ?_, fun a data rest hb => ⟨_, rfl, ?_⟩⟩
    · rw [State.atomicSteps_load, State.textWrites, hw.loadWrites]
      rfl
    · rw [State.atomicSteps_load, State.textWrites, hb.loadWrites, List.map_append, List.map_map]
      rfl
  case bytes =>
    intro s a v h dbg hs
    obtain ⟨hread, hwrite⟩ := hs.exec_byte a v dbg
    exact ⟨_, _, _, _, _, _, _, hread, rfl, hwrite, rfl, rfl, rfl, rfl, rfl, rfl⟩
  case closings =>
    intro s j h
    obtain ⟨hok, hfail⟩ := onActivate_gpu j s
    exact ⟨hok, hfail, rfl, fun _ => rfl⟩
  case goesOn =>
    intro s u o rest hin hgo hu
    rw [step_of_goesOn hin hgo hu]
    refine ⟨fun hsplit => ?_, fun n gaps a steps hsplit hsteps => ?_⟩
    · rw [State.advance_nil hsplit]
    · rw [State.advance_cons hsplit hsteps]

end Sys2Proof.Machine
end

section
/-! PROOFS. A word transaction split by its request is its two byte transactions, each in a step of its own
(20_memory.md R91, R108; 40_bus.md R167, R168, R171, R181). -/

namespace Sys2Proof.Machine

/-! ## What a byte read leaves of the inbox and the responses -/

theorem Reaches.inbox {i : Nat} {s t : State} (h : Reaches i s t) : t.inbox = s.inbox := by rw [← h.rest]

theorem busRead_inbox (a : Word) (dbg : Bool) (s : State) : (busRead a dbg s).2.inbox = s.inbox :=
  (busRead_reaches a dbg s).elim fun _ r => r.inbox

theorem busWrite_inbox (a : Word) (v : Byte) (dbg : Bool) (s : State) : (busWrite a v dbg s).inbox = s.inbox :=
  (busWrite_reaches a v dbg s).elim fun _ r => r.inbox

theorem gpuRead_resp (i off : Nat) (s : State) : (gpuRead i off s).2.resp = s.resp := by
  unfold gpuRead
  split <;> rfl

theorem devRead_resp (k : DeviceKind) (i off : Nat) (dbg : Bool) (s : State) :
    (devRead k i off dbg s).2.resp = s.resp := by
  cases dbg
  case true => rfl
  case false =>
    cases k
    case gpu => exact gpuRead_resp i off s
    all_goals rfl

/-- A read gives its byte to the transaction, which answers it (30_encoding.md R123). -/
theorem busRead_resp (a : Word) (dbg : Bool) (s : State) : (busRead a dbg s).2.resp = s.resp := by
  rcases busRead_cases a dbg s with ⟨-, h⟩ | ⟨i, d, -, -, h⟩ <;> rw [h]
  exact devRead_resp _ _ _ _ _

/-! ## Splitting -/

/-- Where more atomic steps are left and no fatal error ended the operation, it is put back. -/
theorem putBack_of_steps {t : State} (hf : t.fault = none) (n : Nat) {o : Ongoing} (ho : o.steps ≠ []) :
    PutBack t n o = { t with inbox := t.inbox.take n ++ .resume o :: t.inbox.drop n } := if_pos ⟨hf, ho⟩

/-- The bus forms of an operation are admitted where the bus is open. -/
theorem State.BusOpen.admits {s : State} (h : s.BusOpen) {i : Instr} (hi : admission i = .busOrReady) :
    s.Admits i := by
  obtain ⟨hf, hp⟩ := h
  rw [State.admits_iff, hi]
  exact ⟨hf, (Admission.busOrReady_holds _ _).mpr hp⟩

theorem State.BusOpen.goesOn {s : State} (h : s.BusOpen) {i : Instr} (hi : admission i = .busOrReady) :
    s.GoesOn i := by
  obtain ⟨hf, hp⟩ := h
  rw [State.goesOn_iff, hi]
  exact ⟨hf, (Admission.busOrReady_goesOn _ _).mpr hp⟩

section split

variable {s u : State} {r : Request} {rest : List Entry} {n : Nat} {gaps : List Nat}

/-- A split word read answers at its second byte, with the byte that its first one held. -/
theorem splitsRead {i : Instr} {a : Word} {dbg : Bool} (hin : s.inbox = .request r :: rest) (hp : r.port = .requester)
    (hd : s.decodeRequest r = .ok i) (hsplit : r.split = n :: gaps) (hfree : s.Free i) (hs : s.BusOpen)
    (hu : u = { s with inbox := rest, beside := r.beside, resp := [] }) (hadm : admission i = .busOrReady)
    (hsteps : u.atomicSteps i = some (readSteps a dbg)) :
    SplitsRead s u n (if dbg then .rdD a else .rd a) (if dbg then .rdD (a + 1) else .rd (a + 1)) := by
  have hopen : u.BusOpen := hu ▸ hs
  have hresp : u.resp = [] := hu ▸ rfl
  have hstep := step_of_split hin hp hd hsplit hfree hu (hopen.admits hadm) hsteps
  have hf : (busRead a dbg u).2.fault = none := (busRead_fault a dbg u).trans hopen.1
  refine ⟨{ op := i, steps := [.readLow (a + 1) dbg], held := (busRead a dbg u).1, beside := r.beside, split := gaps },
    _, (busRead a dbg u).1, (hopen.exec_byte a 0 dbg).1, ?_, ?_, fun v q hq hv => ?_⟩
  · rw [busReadByte, State.respond_resp, busRead_resp, hresp]
    rfl
  · rw [hstep]
    refine congrArg _ ((putBack_of_steps hf n (by simp)).trans ?_)
    have hinbox : (busRead a dbg u).2.inbox = u.inbox := busRead_inbox a dbg u
    have hnone : (busRead a dbg u).2.resp = [] := (busRead_resp a dbg u).trans hresp
    simp only [AtomicStep.run, busReadByte, State.respond, hinbox, ← hnone]
  · have hlater : State.BusOpen { v with inbox := q, beside := u.beside, resp := [] } := hv
    refine ⟨_, (busRead (a + 1) dbg { v with inbox := q, beside := u.beside, resp := [] }).1,
      (hlater.exec_byte (a + 1) 0 dbg).1, ?_, ?_⟩
    · rw [busReadByte, State.respond_resp, busRead_resp]
      rfl
    · rw [step_of_goesOn hq (hv.goesOn hadm) rfl, State.advance_last rfl, ← show u.beside = r.beside from hu ▸ rfl]
      refine congrArg _ ?_
      simp only [AtomicStep.run, busReadByte, State.respond, busRead_resp, List.nil_append]
      rfl

/-- A split word write writes its high byte now and its low byte later. -/
theorem splitsWrite {i : Instr} {a w : Word} {dbg : Bool} (hin : s.inbox = .request r :: rest)
    (hp : r.port = .requester) (hd : s.decodeRequest r = .ok i) (hsplit : r.split = n :: gaps) (hfree : s.Free i)
    (hs : s.BusOpen) (hu : u = { s with inbox := rest, beside := r.beside, resp := [] })
    (hadm : admission i = .busOrReady) (hsteps : u.atomicSteps i = some (writeSteps a w dbg)) :
    SplitsWrite s u n (if dbg then .wrD a (w.extractLsb' 8 8) else .wr a (w.extractLsb' 8 8))
      (if dbg then .wrD (a + 1) (w.extractLsb' 0 8) else .wr (a + 1) (w.extractLsb' 0 8)) := by
  have hopen : u.BusOpen := hu ▸ hs
  have hstep := step_of_split hin hp hd hsplit hfree hu (hopen.admits hadm) hsteps
  have hf : (busWrite a (hi8 w) dbg u).fault = none := (busWrite_fault a _ dbg u).trans hopen.1
  refine ⟨{ op := i, steps := [.write (a + 1) (lo8 w) dbg], held := 0, beside := r.beside, split := gaps },
    _, (hopen.exec_byte a _ dbg).2, ?_, fun v q hq hv => ?_⟩
  · rw [hstep]
    refine congrArg _ ((putBack_of_steps hf n (by simp)).trans ?_)
    have hinbox : (busWrite a (hi8 w) dbg u).inbox = u.inbox := busWrite_inbox a _ dbg u
    simp only [AtomicStep.run, hinbox]
    rfl
  · have hlater : State.BusOpen { v with inbox := q, beside := u.beside, resp := [] } := hv
    refine ⟨_, (hlater.exec_byte (a + 1) _ dbg).2, ?_⟩
    rw [step_of_goesOn hq (hv.goesOn hadm) rfl, State.advance_last rfl, ← show u.beside = r.beside from hu ▸ rfl]
    rfl

end split

/-- Settles O6, form by form. -/
theorem stepSplitsWord : Obligations.StepSplitsWord := by
  intro s u r rest n gaps a w hin hp hsplit hs hfree hu
  refine ⟨fun hd => ?_, fun hd => ?_, fun hd => ?_, fun hd => ?_⟩
  · exact splitsRead (dbg := false) hin hp hd hsplit (hfree _ hd) hs hu rfl rfl
  · exact splitsRead (dbg := true) hin hp hd hsplit (hfree _ hd) hs hu rfl rfl
  · exact splitsWrite (dbg := false) hin hp hd hsplit (hfree _ hd) hs hu rfl rfl
  · exact splitsWrite (dbg := true) hin hp hd hsplit (hfree _ hd) hs hu rfl rfl

end Sys2Proof.Machine
end

section
/-! PROOFS. Reads that change nothing, and reads after writes (20_memory.md R92, R94). -/

namespace Sys2Proof.Machine

/-! ## Reads -/

/-- A normal read of a GPU byte other than GPU_BLIT_DATA changes nothing (20_memory.md R92; 45_blit.md R344). -/
theorem gpuRead_keeps {off : Nat} (h : off ≠ 0x1A) (i : Nat) (s : State) : (gpuRead i off s).2 = s := by
  unfold gpuRead
  split
  case h_13 => exact absurd rfl h
  all_goals rfl

/-- Reads of a device change nothing, but for draws and the blit data port; debug reads change nothing at all. -/
theorem devRead_keeps {k : DeviceKind} {off : Nat} {dbg : Bool}
    (h : dbg = true ∨ (k ≠ .other ∧ ¬(k = .gpu ∧ off = 0x1A))) (i : Nat) (s : State) :
    (devRead k i off dbg s).2 = s := by
  rcases h with rfl | ⟨hother, hport⟩
  · rfl
  · cases dbg
    case true => rfl
    case false =>
      cases k
      case gpu => exact gpuRead_keeps (fun e => hport ⟨rfl, e⟩) i s
      case other => exact absurd rfl hother
      all_goals rfl

/-- Reads of the bus change nothing where the read of the device that contains the address changes nothing. -/
theorem busRead_keeps {s : State} {a : Word} {dbg : Bool}
    (h : dbg = true ∨ ∀ i d, s.Maps a i d → d.kind ≠ .other ∧ ¬(d.kind = .gpu ∧ a.toNat = d.range.base + 0x1A)) :
    (busRead a dbg s).2 = s := by
  rcases busRead_cases a dbg s with ⟨-, e⟩ | ⟨i, d, -, hm, e⟩ <;> rw [e]
  refine devRead_keeps (h.imp id fun hk => ?_) i s
  obtain ⟨hother, hport⟩ := hk i d hm
  obtain ⟨-, hlo, -⟩ := hm
  exact ⟨hother, fun ⟨hgpu, hoff⟩ => hport ⟨hgpu, by omega⟩⟩

theorem busReadByte_of_keeps {s : State} {a : Word} {dbg : Bool} (h : (busRead a dbg s).2 = s) :
    busReadByte a dbg s = Answered s (.byte (busRead a dbg s).1) := by
  rw [busReadByte, h]
  rfl

/-- Settles O12: the answered read leaves what the read of the bus leaves. -/
theorem readsChangeNothing : Obligations.ReadsChangeNothing := by
  intro s a hs
  refine ⟨fun h => ⟨(busRead a false s).1, ?_⟩, ⟨(busRead a true s).1, ?_⟩⟩
  · exact (hs.whenAdmitted _).trans (congrArg _ (busReadByte_of_keeps (busRead_keeps (.inr h))))
  · exact (hs.whenAdmitted _).trans (congrArg _ (busReadByte_of_keeps (busRead_keeps (.inl rfl))))

/-! ## Reads after writes -/

/-- A read of the bus at a mapped address is the read of the device there. -/
theorem busRead_of_maps {s : State} (h : s.Inv) {a : Word} {i : Nat} {d : Device} (hm : s.Maps a i d)
    (dbg : Bool) : busRead a dbg s = devRead d.kind i (a.toNat - d.range.base) dbg s := by
  simp only [busRead, h.select_eq hm, hm.1]

/-- A write of the bus at a mapped address is the write of the device there. -/
theorem busWrite_of_maps {s : State} (h : s.Inv) {a : Word} {i : Nat} {d : Device} (hm : s.Maps a i d)
    (v : Byte) (dbg : Bool) :
    busWrite a v dbg s = devWrite d.kind i (a.toNat - d.range.base) v dbg s := by
  simp only [busWrite, h.select_eq hm, hm.1]

/-- The bytes of writable devices that have no handler (41_device.md R202, R203). -/
def PlainByte (k : DeviceKind) (off : Nat) : Prop :=
  k = .ram ∨ k = .videoRam ∨ (k = .sys ∧ off ≠ 0) ∨
    (k = .gpu ∧ (off ∈ [0x05, 0x08, 0x0B, 0x14, 0x15, 0x16, 0x17] ∨ 0x1D ≤ off))

theorem PlainByte.no_handler {k : DeviceKind} {off : Nat} (h : PlainByte k off) :
    hasReadHandler k off = false ∧ hasWriteHandler k off = false := by
  rcases h with rfl | rfl | ⟨rfl, hoff⟩ | ⟨rfl, hoff⟩
  · exact ⟨rfl, rfl⟩
  · exact ⟨rfl, rfl⟩
  · simp [hasReadHandler, hasWriteHandler, hoff]
  · rcases hoff with hoff | hoff
    · revert off
      decide
    · simp only [hasReadHandler, hasWriteHandler, beq_self_eq_true, Bool.true_and, Bool.or_eq_false_iff,
        beq_eq_false_iff_ne, Bool.and_eq_false_iff, decide_eq_false_iff_not]
      omega

theorem PlainByte.devWrite_eq {k : DeviceKind} {off : Nat} (h : PlainByte k off) (i : Nat) (v : Byte) (s : State) :
    devWrite k i off v false s = s.setDevByte i off v := by
  have hrom : k ≠ .rom := by rintro rfl; simp [PlainByte] at h
  have hother : k ≠ .other := by rintro rfl; simp [PlainByte] at h
  rw [devWrite_of_no_handler h.no_handler.2 hrom, if_neg hother]

theorem PlainByte.devRead_eq {k : DeviceKind} {off : Nat} (h : PlainByte k off) (i : Nat) (s : State) :
    devRead k i off false s = (s.devByte i off, s) := by
  have hother : k ≠ .other := by rintro rfl; simp [PlainByte] at h
  rw [devRead_of_no_handler h.no_handler.1, if_neg hother]

/-- Settles O13: the write stores the backing byte that the read answers. -/
theorem readAfterWrite : Obligations.ReadAfterWrite := by
  intro s a v i d hs hinv hm hbyte
  obtain ⟨hd, hlo, hhi⟩ := hm
  let off := a.toNat - d.range.base
  have hplain : PlainByte d.kind off :=
    hbyte.imp_right (Or.imp_right (Or.imp_left fun ⟨hk, hne⟩ => ⟨hk, by omega⟩))
  have hoff : off < d.range.size := by omega
  obtain ⟨hstored, honly⟩ := State.setDevByte_storesByte hd (hinv.sound hd).1 off v
  have hwrite : busWrite a v false s = s.setDevByte i off v :=
    (busWrite_of_maps hinv ⟨hd, hlo, hhi⟩ v false).trans (hplain.devWrite_eq i v s)
  have hmaps : (s.setDevByte i off v).Maps a i (d.setByte off v) :=
    ⟨State.setDevByte_getElem?_self hd off v, hlo, hhi⟩
  have hread : busRead a false (s.setDevByte i off v) = (v, s.setDevByte i off v) := by
    rw [busRead_of_maps (hinv.setDevByte hd hoff v) hmaps]
    exact (hplain.devRead_eq i _).trans (by rw [hstored])
  have hopen : (s.setDevByte i off v).BusOpen := hs
  refine ⟨_, (hs.whenAdmitted _).trans (congrArg _ hwrite), (hopen.whenAdmitted _).trans ?_, honly⟩
  rw [busReadByte, hread]
  rfl

end Sys2Proof.Machine
end

section
/-! PROOFS. Where an operation runs and where it leads: it runs in the states of its admission row, its phase and
running flag go forward, and once the machine is constructed it moves no device and leaves the inbox alone
(70_reset_and_hazards.md R446 to R449). -/

namespace Sys2Proof.Machine

/-! ## Admission -/

theorem State.BusOpen.of_busOpen {s : State} (hf : s.fault = none) (hb : s.busOpen = true) : s.BusOpen :=
  ⟨hf, by simpa [State.busOpen] using hb⟩

section rows

variable {s t : State}

/-- A row of a kind of device reaches that device alone. -/
theorem State.atDevice_reaches {k : DeviceKind} {act : Nat → State → State} (h : s.atDevice k act = .next t)
    (hact : ∀ j u, Reaches j u (act j u)) : s.BusOpen ∧ ∃ j, Reaches j s t := by
  obtain ⟨hf, hb, -, rfl⟩ := State.atDevice_eq_next.mp h
  exact ⟨.of_busOpen hf hb, s.target, hact s.target s⟩

/-- A generic row reaches its device alone. -/
theorem State.atByte_reaches {off : Word} {row : Device → Bool} {act : Nat → Device → State → State}
    (h : s.atByte off row act = .next t) (hact : ∀ j d u, Reaches j u (act j d u)) :
    s.BusOpen ∧ ∃ j, Reaches j s t := by
  obtain ⟨hf, hb, d, -, -, -, rfl⟩ := State.atByte_eq_next.mp h
  exact ⟨.of_busOpen hf hb, s.target, hact s.target d s⟩

/-- A transaction of the bus reaches at most one device. -/
theorem State.onBus_reaches {u : State} (h : s.whenAdmitted s.busOpen (.next u) = .next t) (hu : ∃ j, Reaches j s u) :
    s.BusOpen ∧ ∃ j, Reaches j s t := by
  obtain ⟨hf, hb, e⟩ := State.admit_eq_next.mp h
  cases e
  exact ⟨.of_busOpen hf hb, hu⟩

theorem busReadByte_reaches (a : Word) (dbg : Bool) (s : State) : ∃ j, Reaches j s (busReadByte a dbg s) :=
  (busRead_reaches a dbg s).imp fun j h => h.trans (State.respond_reaches _ j _)

theorem execDevRd_reaches {off : Word} (h : execDevRd off s = .next t) : s.BusOpen ∧ ∃ j, Reaches j s t := by
  refine State.atByte_reaches h fun j d u => ?_
  split_ifs
  · exact (u.drawByte_reaches j).trans (State.respond_reaches _ j _)
  · exact u.respond_reaches j _

theorem execDevWr_reaches {off : Word} {v : Byte} (h : execDevWr off v s = .next t) :
    s.BusOpen ∧ ∃ j, Reaches j s t := by
  refine State.atByte_reaches h fun j d u => ?_
  split_ifs
  · exact Reaches.refl j u
  · exact u.setDevByte_reaches j _ _

theorem State.dispatchKnown_reaches (s : State) (i : Nat) (hs : Nat → HandlerView → HandlerResult) (e : CommandEntry) :
    Reaches i s (s.dispatchKnown i hs e) := by
  refine Reaches.trans ?_ (State.setDevByte_reaches _ i _ _)
  unfold State.runHandler
  split
  · exact s.commitHandler_reaches i _
  · exact s.setError_reaches i _

theorem execCmdKnown_reaches {op : Byte} (h : execCmdKnown op s = .next t) : s.BusOpen ∧ ∃ j, Reaches j s t := by
  unfold execCmdKnown at h
  split at h
  · next e _ => exact State.atDevice_reaches h fun j u => u.dispatchKnown_reaches j _ e
  · cases h

theorem execCmdUnknown_reaches {op : Byte} (h : execCmdUnknown op s = .next t) : s.BusOpen ∧ ∃ j, Reaches j s t := by
  unfold execCmdUnknown at h
  split at h
  · cases h
  · exact State.atDevice_reaches h fun j u => (u.setError_reaches j _).trans (State.setDevByte_reaches _ j _ _)

/-- A byte transaction and a row at a device's port run where the bus is open and reach at most one device. -/
theorem exec_access_reaches {i : Instr} (hdiv : ¬ IsDivided i) (hhost : ¬ IsHostOperation i) (hshut : i ≠ .shutdown)
    (h : exec i s = .next t) : s.BusOpen ∧ ∃ j, Reaches j s t := by
  cases i <;> dsimp only [exec] at h
  case rd a => exact State.onBus_reaches h (busReadByte_reaches a false s)
  case rdD a => exact State.onBus_reaches h (busReadByte_reaches a true s)
  case wr a v => exact State.onBus_reaches h (busWrite_reaches a v false s)
  case wrD a v => exact State.onBus_reaches h (busWrite_reaches a v true s)
  case devRd => exact execDevRd_reaches h
  case devWr => exact execDevWr_reaches h
  case devRdD => exact State.atByte_reaches h fun j _ u => u.respond_reaches j _
  case devWrD | romWrD => exact State.atByte_reaches h fun j _ u => u.setDevByte_reaches j _ _
  case romWr => exact State.atByte_reaches h fun j _ u => Reaches.refl j u
  case wrGpuVidtopMsb | wrGpuVidtopLsb | wrGpuError => exact State.atDevice_reaches h fun j u => Reaches.refl j u
  case wrGpuMode v => exact State.atDevice_reaches h fun j u => writeMode_reaches j v u
  case wrGpuRes v => exact State.atDevice_reaches h fun j u => writeRes_reaches j v u
  case wrGpuOptions v => exact State.atDevice_reaches h fun j u => writeOptions_reaches j v u
  case wrGpuBlitWidthMsb | wrGpuBlitWidthLsb =>
    exact State.atDevice_reaches h fun j u => writeBlitWidth_reaches j _ _ u
  case rdGpuBlitData =>
    exact State.atDevice_reaches h fun j u => (u.blitAdvance_reaches j).trans (State.respond_reaches _ j _)
  case wrGpuBlitData v => exact State.atDevice_reaches h fun j u => blitWrite_reaches j v u
  case wrGpuCmd op => exact State.atDevice_reaches h fun j u => u.dispatchWith_reaches j _ op
  case cmdKnown => exact execCmdKnown_reaches h
  case cmdUnknown => exact execCmdUnknown_reaches h
  case wrGpuPalIndex | wrGpuEpalIndex | wrGpuGlyphIndex | wrGpuBlitAddrMsb | wrGpuBlitAddrLsb | wrGpuBlitPitchMsb
      | wrGpuBlitPitchLsb | wrSysSpeed =>
    exact State.atDevice_reaches h fun j u => u.setDevByte_reaches j _ _
  case wrGpuPalDataMsb | wrGpuPalDataLsb | wrGpuEpalDataMsb | wrGpuEpalDataLsb | wrGpuGlyphRow0 | wrGpuGlyphRow1
      | wrGpuGlyphRow2 | wrGpuGlyphRow3 | wrGpuGlyphRow4 | wrGpuGlyphRow5 | wrGpuGlyphRow6 | wrGpuGlyphRow7 =>
    exact State.atDevice_reaches h fun j u => Reaches.ofGpu j u _
  case rdGpuMode | rdGpuRes | rdGpuOptions | rdGpuVidtopMsb | rdGpuVidtopLsb | rdGpuPalIndex | rdGpuPalDataMsb
      | rdGpuPalDataLsb | rdGpuEpalIndex | rdGpuEpalDataMsb | rdGpuEpalDataLsb | rdGpuGlyphIndex | rdGpuGlyphRow0
      | rdGpuGlyphRow1 | rdGpuGlyphRow2 | rdGpuGlyphRow3 | rdGpuGlyphRow4 | rdGpuGlyphRow5 | rdGpuGlyphRow6
      | rdGpuGlyphRow7 | rdGpuBlitAddrMsb | rdGpuBlitAddrLsb | rdGpuBlitPitchMsb | rdGpuBlitPitchLsb
      | rdGpuBlitWidthMsb | rdGpuBlitWidthLsb | rdGpuCmd | rdGpuError | rdSysSpeed =>
    exact State.atDevice_reaches h fun j u => u.respond_reaches j _
  case attach | init => exact absurd trivial hhost
  case shutdown => exact absurd rfl hshut
  case rdw | wrw | rdwD | wrwD | quit | activate | deactivate | event | update | render | tick | load =>
    exact absurd trivial hdiv

end rows

/-- An operation of the host that is not taken apart is one of phase CONSTRUCT: ATTACH or INIT (log 12). -/
theorem admission_of_host {i : Instr} (hdiv : ¬ IsDivided i) (hhost : IsHostOperation i) :
    admission i = .construct := by
  cases i
  case attach | init => rfl
  case quit | activate | deactivate | event | update | render | load => exact absurd trivial hdiv
  all_goals exact hhost.elim

theorem admission_of_access {i : Instr} (hdiv : ¬ IsDivided i) (hhost : ¬ IsHostOperation i) (hshut : i ≠ .shutdown) :
    admission i = .busOrReady := by
  cases i
  case attach | init => exact absurd trivial hhost
  case shutdown => exact absurd rfl hshut
  case quit | activate | deactivate | event | update | render | tick | load => exact absurd trivial hdiv
  all_goals rfl

/-- An operation runs only in the states of its admission row (70_reset_and_hazards.md R447). -/
theorem exec_admits {i : Instr} {s t : State} (h : exec i s = .next t) : s.Admits i := by
  by_cases haccess : ¬ IsDivided i ∧ ¬ IsHostOperation i ∧ i ≠ .shutdown
  · obtain ⟨hdiv, hhost, hshut⟩ := haccess
    exact (exec_access_reaches hdiv hhost hshut h).1.admits (admission_of_access hdiv hhost hshut)
  · rw [State.admits_iff]
    cases i <;> dsimp only [exec] at h
    case attach | init | shutdown | rdw | wrw | rdwD | wrwD | quit | activate | deactivate | event | update | render
        | tick | load =>
      obtain ⟨hf, hrow, -⟩ := State.admit_eq_next.mp h
      exact ⟨hf, hrow⟩
    all_goals exact absurd ⟨fun h => h, fun h => h, fun h => Instr.noConfusion h⟩ haccess

/-! ## Going forward -/

theorem GoesForward.of_same {i : Instr} {s t : State} (hp : t.phase = s.phase) (hr : t.running = s.running) :
    GoesForward i s t := ⟨.inl hp, .inl hr⟩

theorem GoesForward.trans {i : Instr} {s t u : State} (h : GoesForward i s t) (h' : GoesForward i t u) :
    GoesForward i s u := by
  obtain ⟨hp, hr⟩ := h
  obtain ⟨hp', hr'⟩ := h'
  constructor
  · grind
  · grind

/-- The closing assignments of an operation: only ACTIVATE enters the run phase and only QUIT ends it
(40_bus.md R173, R177). -/
def ClosesAs (i : Instr) : AtomicStep → Prop
  | .close .enterRun => i = .activate
  | .close .finish => i = .quit
  | _ => True

theorem closesAs_fanSteps (i : Instr) (s : State) (c : Callback) : ∀ a ∈ s.fanSteps c, ClosesAs i a := by
  intro a ha
  obtain ⟨d, -, rfl⟩ := List.mem_map.mp ha
  trivial

theorem closesAs_rebuildSteps (i : Instr) (s : State) : ∀ a ∈ s.rebuildSteps, ClosesAs i a := by
  unfold State.rebuildSteps
  split_ifs
  · simp only [List.forall_mem_append, List.forall_mem_singleton]
    exact ⟨⟨closesAs_fanSteps i s _, closesAs_fanSteps i s _⟩, trivial⟩
  · simp

theorem closesAs_cpuTransaction (i : Instr) (c : CpuTransaction) : ∀ a ∈ c.steps, ClosesAs i a := by
  cases c <;> simp [CpuTransaction.steps, readSteps, writeSteps, ClosesAs]

/-- The atomic steps of an operation close it as that operation. -/
theorem State.atomicSteps_closesAs {s : State} {i : Instr} {steps : List AtomicStep}
    (h : s.atomicSteps i = some steps) : ∀ a ∈ steps, ClosesAs i a := by
  cases i
  case rdw | rdwD => cases h; simp [readSteps, ClosesAs]
  case wrw | wrwD => cases h; simp [writeSteps, ClosesAs]
  case quit | activate =>
    cases h
    exact List.forall_mem_append.mpr ⟨closesAs_fanSteps _ s _, List.forall_mem_singleton.mpr rfl⟩
  case deactivate | event | render => cases h; exact closesAs_fanSteps _ s _
  case update =>
    cases h
    exact List.forall_mem_append.mpr ⟨closesAs_rebuildSteps _ s, closesAs_fanSteps _ s _⟩
  case tick =>
    cases h
    refine List.forall_mem_append.mpr ⟨fun a ha => ?_, List.forall_mem_singleton.mpr trivial⟩
    obtain ⟨c, -, hc⟩ := List.mem_flatMap.mp ha
    exact closesAs_cpuTransaction _ c a hc
  case load =>
    cases h
    intro a ha
    obtain ⟨w, -, rfl⟩ := List.mem_map.mp ha
    trivial
  all_goals cases h

/-- An operation that is taken apart runs after construction, and QUIT where the main loop has stopped. -/
def State.Underway (s : State) (i : Instr) : Prop := s.phase ≠ .construct ∧ (i = .quit → s.running = false)

theorem State.GoesOn.underway {s : State} {i : Instr} (h : s.GoesOn i) : s.Underway i := by
  obtain ⟨-, hrow⟩ := (s.goesOn_iff i).mp h
  refine ⟨fun hc => ?_, ?_⟩
  · rw [hc] at hrow
    cases hi : admission i <;> simp [hi] at hrow
  · rintro rfl
    obtain ⟨-, hstopped⟩ := (Admission.stopped_goesOn _ _).mp hrow
    exact hstopped

theorem GoesForward.underway {i : Instr} {s t : State} (h : GoesForward i s t) (hs : s.Underway i) : t.Underway i := by
  obtain ⟨hp, hr⟩ := h
  obtain ⟨hphase, hrunning⟩ := hs
  refine ⟨?_, ?_⟩
  · rcases hp with e | ⟨-, e, -⟩ | ⟨-, e, -⟩ | ⟨-, -, e, -⟩ <;> simp [e, hphase]
  · rintro rfl
    rcases hr with e | ⟨-, -, e⟩ | ⟨-, e⟩
    · exact e.trans (hrunning rfl)
    · cases e
    · cases e

/-- A closing assignment of an operation takes it forward. -/
theorem Closing.run_goesForward {i : Instr} {c : Closing} {s : State} (hc : ClosesAs i (.close c)) (hs : s.Underway i) :
    GoesForward i s (c.run s) := by
  cases c with
  | enterRun =>
    rw [Closing.run, State.enterRun]
    split_ifs with hready
    · exact ⟨.inr (.inr (.inl ⟨hready, rfl, hc⟩)), .inr (.inl ⟨rfl, hready, hc⟩)⟩
    · exact .of_same rfl rfl
  | finish =>
    obtain ⟨hphase, hrunning⟩ := hs
    refine ⟨?_, .inl rfl⟩
    cases hp : s.phase with
    | construct => exact absurd hp hphase
    | ready => exact .inr (.inr (.inr ⟨.inl rfl, hrunning hc, rfl, hc⟩))
    | run => exact .inr (.inr (.inr ⟨.inr rfl, hrunning hc, rfl, hc⟩))
    | done => exact .inl rfl
  | clearDirty => exact .of_same rfl rfl
  | interval n => exact .of_same rfl rfl

/-- A step of an operation takes it forward, moves no device and leaves the inbox alone. -/
structure Onward (i : Instr) (s t : State) : Prop where
  forward : GoesForward i s t
  devices : SameDevices s t
  inbox : t.inbox = s.inbox

theorem Onward.refl (i : Instr) (s : State) : Onward i s s := ⟨.of_same rfl rfl, SameDevices.refl s, rfl⟩

theorem Onward.trans {i : Instr} {s t u : State} (h : Onward i s t) (h' : Onward i t u) : Onward i s u :=
  ⟨h.forward.trans h'.forward, h.devices.trans h'.devices, h'.inbox.trans h.inbox⟩

theorem Reaches.onward {j : Nat} {s t : State} (h : Reaches j s t) (i : Instr) : Onward i s t :=
  ⟨.of_same h.phase h.running, h.devices, h.inbox⟩

theorem Callback.run_onward (c : Callback) (k : DeviceKind) (j : Nat) (i : Instr) (s : State) :
    Onward i s (c.run k j s) := by
  rcases c.run_cases k j s with e | e | e <;> rw [e]
  · exact Onward.refl i s
  · exact ⟨.of_same rfl rfl, rfl, rfl⟩
  · exact ⟨.of_same rfl rfl, rfl, rfl⟩

theorem Closing.run_inbox (c : Closing) (s : State) : (c.run s).inbox = s.inbox := by
  cases c with
  | enterRun =>
    rw [Closing.run, State.enterRun]
    split_ifs <;> rfl
  | finish => rfl
  | clearDirty => rfl
  | interval n => rfl

theorem AtomicStep.run_onward {i : Instr} {a : AtomicStep} (ha : ClosesAs i a) {s : State} (hs : s.Underway i)
    (h : Byte) : Onward i s (a.run h s).2 := by
  cases a with
  | read a dbg => exact (busReadByte_reaches a dbg s).elim fun _ r => r.onward i
  | readHigh a dbg => exact (busRead_reaches a dbg s).elim fun _ r => r.onward i
  | readLow a dbg => exact (busRead_reaches a dbg s).elim fun j r => (r.trans (State.respond_reaches _ j _)).onward i
  | write a v dbg => exact (busWrite_reaches a v dbg s).elim fun _ r => r.onward i
  | callback c k j => exact c.run_onward k j i s
  | close c =>
    obtain ⟨-, hdevs, -⟩ := c.run_keeps s
    exact ⟨c.run_goesForward ha hs, .of_devs_eq hdevs, c.run_inbox s⟩

/-- A run of an operation's atomic steps leads onward. -/
theorem runSteps_onward {i : Instr} {steps : List AtomicStep} (hsteps : ∀ a ∈ steps, ClosesAs i a) {s : State}
    (hs : s.Underway i) (h : Byte) : Onward i s (runSteps steps h s) := by
  induction steps generalizing s h with
  | nil => exact Onward.refl i s
  | cons a rest ih =>
    obtain ⟨ha, hrest⟩ := List.forall_mem_cons.mp hsteps
    have hstep := AtomicStep.run_onward ha hs h
    exact State.unlessFatal_induction (p := Onward i s) hstep
      (hstep.trans (ih hrest (hstep.forward.underway hs) _))

/-- After construction every operation leads onward. -/
theorem exec_onward {i : Instr} {s t : State} (h : exec i s = .next t) (hs : s.phase ≠ .construct) : Onward i s t := by
  have hadm := exec_admits h
  by_cases hdiv : IsDivided i
  · obtain ⟨steps, hsteps⟩ := Option.ne_none_iff_exists'.mp fun e => (s.atomicSteps_eq_none_iff i).mp e hdiv
    rw [exec_eq_runSteps hadm hsteps 0] at h
    cases h
    refine runSteps_onward (State.atomicSteps_closesAs hsteps) ⟨hs, ?_⟩ 0
    rintro rfl
    obtain ⟨-, -, hstopped⟩ := hadm
    exact hstopped
  · by_cases hhost : IsHostOperation i
    · obtain ⟨-, hrow⟩ := (s.admits_iff i).mp hadm
      rw [admission_of_host hdiv hhost] at hrow
      exact absurd ((Admission.construct_holds _ _).mp hrow) hs
    · by_cases hshut : i = .shutdown
      · subst hshut
        obtain ⟨-, -, e⟩ := State.admit_eq_next.mp h
        cases e
        exact ⟨⟨.inl rfl, .inr (.inr ⟨rfl, rfl⟩)⟩, rfl, rfl⟩
      · exact (exec_access_reaches hdiv hhost hshut h).2.elim fun _ r => r.onward i

/-- ATTACH and INIT leave the inbox alone. -/
theorem exec_construct_inbox {i : Instr} {s t : State} (hi : admission i = .construct) (h : exec i s = .next t) :
    t.inbox = s.inbox := by
  cases i <;> dsimp only [exec] at h
  case attach =>
    obtain ⟨-, -, e⟩ := State.admit_eq_next.mp h
    split_ifs at e <;> cases e <;> rfl
  case init =>
    obtain ⟨-, -, e⟩ := State.admit_eq_next.mp h
    split_ifs at e
    cases e
    exact State.fanOut_induction (p := fun u => u.inbox = s.inbox)
      (fun k j u hu => (onInit_reaches k j u).inbox.trans hu) s rfl
  all_goals exact Admission.noConfusion hi

/-- No operation changes what is in the inbox. -/
theorem exec_inbox {i : Instr} {s t : State} (h : exec i s = .next t) : t.inbox = s.inbox := by
  by_cases hs : s.phase = .construct
  · obtain ⟨-, hrow⟩ := (s.admits_iff i).mp (exec_admits h)
    refine exec_construct_inbox ?_ h
    cases hi : admission i <;> simp [hi, hs] at hrow ⊢
  · exact (exec_onward h hs).inbox

end Sys2Proof.Machine
end

section
/-! PROOFS. Every step keeps the operations in progress in order: each is what is left of an operation that began
after construction and can go on, and no agent has two of them (20_memory.md R100, R102; 60_exceptions.md R422). -/

namespace Sys2Proof.Machine

/-! ## One operation in progress -/

/-- What is left of an operation that began after construction: some of its atomic steps, to the last. -/
def State.Proper (s : State) (o : Ongoing) : Prop :=
  s.phase ≠ .construct ∧ o.steps ≠ [] ∧ ∃ (dirty : Bool) (steps : List AtomicStep),
    ({ s with beside := o.beside, envDirty := dirty } : State).atomicSteps o.op = some steps ∧ o.steps <:+ steps

theorem SameDevices.kinds {s t : State} (h : SameDevices s t) : t.devs.map (·.kind) = s.devs.map (·.kind) := by
  have := congrArg (List.map Prod.fst) h
  simpa [List.map_map, Function.comp_def] using this

/-- The atomic steps of an operation depend on the kinds of the devices, on what travels beside its word and on the
dirty flag alone. -/
theorem State.atomicSteps_congr {s t : State} (hk : t.devs.map (·.kind) = s.devs.map (·.kind))
    (hb : t.beside = s.beside) (he : t.envDirty = s.envDirty) (i : Instr) : t.atomicSteps i = s.atomicSteps i := by
  cases i
  case quit | activate | deactivate | event | update | render =>
    simp only [State.atomicSteps_quit, State.atomicSteps_activate, State.atomicSteps_deactivate,
      State.atomicSteps_event, State.atomicSteps_update, State.atomicSteps_render, State.rebuildSteps,
      State.fanSteps_congr hk, hb, he]
  case tick | load => simp only [State.atomicSteps_tick, State.atomicSteps_load, State.textWrites, hb]
  all_goals rfl

theorem State.Proper.congr {s t : State} {o : Ongoing} (h : s.Proper o) (hd : SameDevices s t)
    (hp : t.phase ≠ .construct) : t.Proper o := by
  obtain ⟨-, hne, dirty, steps, hsteps, hsuffix⟩ := h
  refine ⟨hp, hne, dirty, steps, ?_, hsuffix⟩
  exact (State.atomicSteps_congr (s := { s with beside := o.beside, envDirty := dirty })
    (t := { t with beside := o.beside, envDirty := dirty }) hd.kinds rfl rfl _).trans hsteps

/-- What is left of an operation after an atomic step is proper too. -/
theorem State.Proper.tail {s : State} {o o' : Ongoing} {a : AtomicStep} {rest : List AtomicStep} (h : s.Proper o)
    (ho : o.steps = a :: rest) (hop : o'.op = o.op) (hb : o'.beside = o.beside) (hsteps : o'.steps = rest)
    (hne : o'.steps ≠ []) : s.Proper o' := by
  obtain ⟨hp, -, dirty, steps, hall, hsuffix⟩ := h
  refine ⟨hp, hne, dirty, steps, by rw [hop, hb]; exact hall, ?_⟩
  rw [hsteps]
  exact (List.suffix_cons a rest).trans (ho ▸ hsuffix)

theorem State.Proper.closesAs {s : State} {o : Ongoing} (h : s.Proper o) : ∀ a ∈ o.steps, ClosesAs o.op a := by
  obtain ⟨-, -, dirty, steps, hall, hsuffix⟩ := h
  exact fun a ha => State.atomicSteps_closesAs hall a (hsuffix.subset ha)

theorem SameAgent.symm {i j : Instr} (h : SameAgent i j) : SameAgent j i :=
  (sameAgent_iff j i).mpr ((sameAgent_iff i j).mp h).symm

/-! ## Which operations can go on -/

theorem State.GoesOn.phase {s : State} {i : Instr} (h : s.GoesOn i) : s.phase = .ready ∨ s.phase = .run := by
  obtain ⟨-, hrow⟩ := (s.goesOn_iff i).mp h
  cases hi : admission i <;> simp [hi] at hrow <;> simp [hrow]

theorem State.Admits.phase_ne_done {s : State} {i : Instr} (h : s.Admits i) : s.phase ≠ .done := by
  obtain ⟨-, hrow⟩ := (s.admits_iff i).mp h
  intro hd
  rw [hd] at hrow
  cases hi : admission i <;> simp [hi] at hrow

/-- No operation that is taken apart begins before the machine is constructed (log 12). -/
theorem State.Admits.phase_of_divided {s u : State} {i : Instr} {steps : List AtomicStep} (h : s.Admits i)
    (hsteps : u.atomicSteps i = some steps) : s.phase ≠ .construct := by
  obtain ⟨-, hrow⟩ := (s.admits_iff i).mp h
  intro hc
  have hi : admission i = .construct := by
    rw [hc] at hrow
    cases hi : admission i <;> simp [hi] at hrow ⊢
  cases i
  case attach | init => cases hsteps
  all_goals exact Admission.noConfusion hi

/-- After construction an operation that begins can go on. -/
theorem State.Admits.goesOn {s : State} {i : Instr} (h : s.Admits i) (hc : s.phase ≠ .construct) : s.GoesOn i := by
  obtain ⟨hf, hrow⟩ := (s.admits_iff i).mp h
  refine (s.goesOn_iff i).mpr ⟨hf, ?_⟩
  cases hi : admission i <;> simp [hi] at hrow ⊢ <;> simp_all

/-- The rows that only the host's operations have. -/
theorem isHostOperation_of_admission {i : Instr} (h : admission i = .ready ∨ admission i = .stopped) :
    IsHostOperation i := by
  cases i
  case load | quit => trivial
  all_goals exact h.elim (fun e => Admission.noConfusion e) fun e => Admission.noConfusion e

/-- An operation that can go on still can after a step of any operation, but for LOAD and QUIT after ACTIVATE, until a
fatal error or the end of the run. -/
theorem GoesForward.goesOn {i j : Instr} {s t : State} (h : GoesForward i s t) (hj : s.GoesOn j)
    (hactivate : i = .activate → admission j ≠ .ready ∧ admission j ≠ .stopped) (hf : t.fault = none)
    (hd : t.phase ≠ .done) : t.GoesOn j := by
  obtain ⟨hp, hr⟩ := h
  have hphase : t.phase = s.phase ∨ (s.phase = .ready ∧ t.phase = .run ∧ i = .activate) := by
    rcases hp with e | ⟨e, -, -⟩ | e | ⟨-, -, e, -⟩
    · exact .inl e
    · rcases hj.phase with e' | e' <;> simp [e] at e'
    · exact .inr e
    · exact absurd e hd
  have hrunning : s.running = false → t.running = false ∨ i = .activate := by
    intro hstopped
    rcases hr with e | ⟨-, -, e⟩ | ⟨e, -⟩
    · exact .inl (e.trans hstopped)
    · exact .inr e
    · exact .inl e
  obtain ⟨-, hrow⟩ := (s.goesOn_iff j).mp hj
  refine (t.goesOn_iff j).mpr ⟨hf, ?_⟩
  cases hi : admission j <;> simp [hi] at hrow ⊢ <;> grind

/-- So it can after a step of another agent's operation. -/
theorem GoesForward.goesOn_other {i j : Instr} {s t : State} (h : GoesForward i s t) (hj : s.GoesOn j)
    (hagent : ¬ SameAgent j i) (hf : t.fault = none) (hd : t.phase ≠ .done) : t.GoesOn j := by
  refine h.goesOn hj ?_ hf hd
  rintro rfl
  have hhost : ¬ IsHostOperation j := fun hh => hagent ((sameAgent_iff _ _).mpr ((agentOf_host j).mpr hh))
  exact ⟨fun e => hhost (isHostOperation_of_admission (.inl e)), fun e => hhost (isHostOperation_of_admission (.inr e))⟩

/-- And after a step of its own. -/
theorem GoesForward.goesOn_self {i : Instr} {s t : State} (h : GoesForward i s t) (hi : s.GoesOn i)
    (hf : t.fault = none) (hd : t.phase ≠ .done) : t.GoesOn i := by
  refine h.goesOn hi ?_ hf hd
  rintro rfl
  exact ⟨fun e => Admission.noConfusion e, fun e => Admission.noConfusion e⟩

theorem GoesForward.phase_ne_construct {i : Instr} {s t : State} (h : GoesForward i s t) (hs : s.phase ≠ .construct) :
    t.phase ≠ .construct := by
  obtain ⟨hp, -⟩ := h
  rcases hp with e | ⟨-, e, -⟩ | ⟨-, e, -⟩ | ⟨-, -, e, -⟩ <;> simp [e, hs]

/-! ## The inbox -/

/-- Two entries are not two operations in progress of one agent. -/
def Apart (x y : Entry) : Prop := ∀ o p, x = .resume o → y = .resume p → ¬ SameAgent o.op p.op

theorem Apart.symm {x y : Entry} (h : Apart x y) : Apart y x := fun o p hx hy hs => h p o hy hx hs.symm

/-- No operation in progress in the inbox is of an operation's agent. -/
def State.Alone (s : State) (i : Instr) : Prop := ∀ p, Entry.resume p ∈ s.inbox → ¬ SameAgent p.op i

theorem State.InboxInv.proper_of_mem {s : State} (h : s.InboxInv) {o : Ongoing} (ho : Entry.resume o ∈ s.inbox) : s.Proper o :=
  h.proper o ho

/-- Where no operation is in progress, they are in order. -/
theorem State.InboxInv.of_requests {s : State} (h : ∀ o, Entry.resume o ∉ s.inbox) : s.InboxInv := by
  refine ⟨fun o ho => absurd ho (h o), fun o ho => absurd ho (h o), ?_⟩
  refine List.pairwise_of_forall_mem_list fun x hx y _ o p hxo _ => ?_
  exact absurd (hxo ▸ hx) (h o)

/-- The invariant with some of the entries, in some order. -/
theorem State.InboxInv.of_subperm {s t : State} (h : s.InboxInv) (hq : List.Subperm t.inbox s.inbox) (hd : SameDevices s t)
    (hp : t.phase = s.phase) (hr : t.running = s.running) (hf : t.fault = s.fault) : t.InboxInv := by
  obtain ⟨q, hperm, hsub⟩ := hq
  have hmem {o : Ongoing} (ho : Entry.resume o ∈ t.inbox) : Entry.resume o ∈ s.inbox :=
    hsub.subset (hperm.symm.subset ho)
  refine ⟨fun o ho => ?_, fun o ho hf' hp' => ?_, ?_⟩
  · have hproper := h.proper_of_mem (hmem ho)
    exact hproper.congr hd (hp ▸ hproper.1)
  · have hgo := h.goesOn o (hmem ho) (hf ▸ hf') (hp ▸ hp')
    rw [State.goesOn_iff] at hgo ⊢
    rw [hf, hp, hr]
    exact hgo
  · exact (hperm.pairwise_iff Apart.symm).mp (h.single.sublist hsub)

/-- A step of an operation of an agent that has none in progress keeps the operations in progress in order. -/
theorem State.InboxInv.onward {i : Instr} {s t : State} (h : s.InboxInv) (halone : s.Alone i) (hst : Onward i s t)
    (hf : s.fault = none) (hd : s.phase ≠ .done) : t.InboxInv := by
  obtain ⟨hforward, hdevices, hinbox⟩ := hst
  refine ⟨fun o ho => ?_, fun o ho hf' hd' => ?_, hinbox ▸ h.single⟩
  · rw [hinbox] at ho
    have hproper := h.proper_of_mem ho
    exact hproper.congr hdevices (hforward.phase_ne_construct hproper.1)
  · rw [hinbox] at ho
    exact hforward.goesOn_other (h.goesOn o ho hf hd) (halone o ho) hf' hd'

/-- Putting back what is left of an operation keeps them in order, where its agent has none in progress. -/
theorem State.InboxInv.putBack {s : State} {o : Ongoing} (h : s.InboxInv) (halone : s.Alone o.op)
    (hproper : o.steps ≠ [] → s.Proper o) (hgo : s.fault = none → s.phase ≠ .done → s.GoesOn o.op) (n : Nat) :
    (PutBack s n o).InboxInv := by
  unfold PutBack
  split_ifs with hput
  · obtain ⟨-, hne⟩ := hput
    have hperm : (s.inbox.take n ++ .resume o :: s.inbox.drop n).Perm (.resume o :: s.inbox) := by
      conv_rhs => rw [← List.take_append_drop n s.inbox]
      exact List.perm_middle
    have hcons : ({ s with inbox := .resume o :: s.inbox } : State).InboxInv := by
      refine ⟨fun p hp => ?_, fun p hp => ?_, List.pairwise_cons.mpr ⟨fun y hy p q hpx hqy hs => ?_, h.single⟩⟩
      · rcases List.mem_cons.mp hp with e | hp
        · cases e; exact hproper hne
        · exact h.proper p hp
      · rcases List.mem_cons.mp hp with e | hp
        · cases e; exact hgo
        · exact h.goesOn p hp
      · cases hpx
        exact halone q (hqy ▸ hy) hs.symm
    exact hcons.of_subperm hperm.subperm rfl rfl rfl rfl
  · exact h

/-- The next step of an operation whose agent has none in the inbox keeps them in order. -/
theorem State.InboxInv.advance {s : State} {o : Ongoing} (h : s.InboxInv) (halone : s.Alone o.op)
    (hproper : o.steps ≠ [] → s.Proper o) (hgo : s.GoesOn o.op) : (s.advance o).InboxInv := by
  have hf : s.fault = none := hgo.1
  have hd : s.phase ≠ .done := by rcases hgo.phase with e | e <;> simp [e]
  cases hsteps : o.steps with
  | nil => rwa [State.advance_done hsteps]
  | cons a rest =>
    have hproper := hproper (by simp [hsteps])
    have hcloses := hproper.closesAs
    cases hsplit : o.split with
    | nil =>
      rw [State.advance_nil hsplit]
      exact h.onward halone (runSteps_onward hcloses hgo.underway _) hf hd
    | cons n gaps =>
      have hstep : Onward o.op s (a.run o.held s).2 :=
        AtomicStep.run_onward (hcloses a (by simp [hsteps])) hgo.underway _
      have hrest : (a.run o.held s).2.Alone o.op := fun p hp => halone p (hstep.inbox ▸ hp)
      rw [State.advance_cons hsplit hsteps]
      have hlater : (a.run o.held s).2.Proper o :=
        hproper.congr hstep.devices (hstep.forward.phase_ne_construct hproper.1)
      exact State.InboxInv.putBack (h.onward halone hstep hf hd)
        (o := { op := o.op, steps := rest, held := (a.run o.held s).1, beside := o.beside, split := gaps }) hrest
        (hlater.tail hsteps rfl rfl rfl) (hstep.forward.goesOn_self hgo) n

/-! ## A step of the block -/

/-- Taking an entry out of the inbox keeps the rest in order. -/
theorem State.InboxInv.taken {s t : State} (h : s.InboxInv) {e : Entry} {rest : List Entry}
    (hnext : s.nextEntries = e :: rest) (hin : t.inbox = rest) (hd : t.devs = s.devs) (hp : t.phase = s.phase)
    (hr : t.running = s.running) (hf : t.fault = s.fault) : t.InboxInv := by
  refine h.of_subperm ?_ (.of_devs_eq hd) hp hr hf
  have hperm : (e :: rest).Perm s.inbox := hnext ▸ s.nextEntries_perm
  exact hin ▸ ((List.sublist_cons_self e rest).subperm.trans hperm.subperm)

/-- A request that takes the next step has no operation of its agent in progress. -/
theorem State.alone_of_request {s : State} {r : Request} {rest : List Entry} {i : Instr}
    (hnext : s.nextEntries = .request r :: rest) (hd : s.decodeRequest r = .ok i) : (s.latch r rest).Alone i := by
  obtain ⟨hin, hfree⟩ := State.nextEntries_request hnext
  intro p hp hagent
  exact hfree i hd p (hin ▸ List.mem_cons_of_mem _ hp) (.inl hagent)

/-- An operation in progress that takes the next step is the only one of its agent. -/
theorem State.InboxInv.alone_of_resume {s : State} (h : s.InboxInv) {o : Ongoing} {rest : List Entry}
    (hnext : s.nextEntries = .resume o :: rest) : (s.relatch o rest).Alone o.op := by
  have hpair : s.nextEntries.Pairwise Apart := (s.nextEntries_perm.pairwise_iff Apart.symm).mpr h.single
  rw [hnext, List.pairwise_cons] at hpair
  obtain ⟨hhead, -⟩ := hpair
  exact fun p hp hagent => hhead _ hp o p rfl rfl hagent.symm

/-- Settles O56: an operation run whole leads onward, and so does the next step of one that is taken apart, whose rest
is put back where its agent has no other. -/
theorem stepKeepsAgentsInOrder : Obligations.StepKeepsAgentsInOrder := by
  intro s t hs h
  rcases step_cases h with ⟨r, rest, i, hnext, hd, he⟩ | ⟨r, rest, i, o, hnext, hd, ho, hadm, rfl⟩ |
    ⟨o, rest, hnext, hgo, rfl⟩
  case inl =>
    have htaken : (s.latch r rest).InboxInv := hs.taken hnext rfl rfl rfl rfl rfl
    have hadm := exec_admits he
    by_cases hc : s.phase = .construct
    · refine .of_requests fun o hmem => ?_
      rw [exec_inbox he] at hmem
      exact (htaken.proper_of_mem hmem).1 hc
    · exact htaken.onward (State.alone_of_request hnext hd) (exec_onward he hc) hadm.1 hadm.phase_ne_done
  case inr.inl =>
    obtain ⟨n, gaps, steps, -, hsteps, rfl⟩ := State.divided_eq_some.mp ho
    have htaken : (s.latch r rest).InboxInv := hs.taken hnext rfl rfl rfl rfl rfl
    have hc : (s.latch r rest).phase ≠ .construct := hadm.phase_of_divided hsteps
    exact htaken.advance (State.alone_of_request hnext hd)
      (fun hne => ⟨hc, hne, s.envDirty, steps, hsteps, List.suffix_refl steps⟩) (hadm.goesOn hc)
  case inr.inr =>
    have htaken : (s.relatch o rest).InboxInv := hs.taken hnext rfl rfl rfl rfl rfl
    have hmem : Entry.resume o ∈ s.inbox := s.nextEntries_perm.subset (hnext ▸ List.mem_cons_self)
    have hproper := hs.proper_of_mem hmem
    have hgo' : (s.relatch o rest).GoesOn o.op := hgo
    exact htaken.advance (hs.alone_of_resume hnext) (fun _ => hproper.congr rfl hproper.1) hgo'

end Sys2Proof.Machine
end

section
/-! PROOFS. At every port a word decodes to an operation exactly where it is that operation's encoding, the operation
is well formed and the port spells it (30_encoding.md R122 to R131). -/

namespace Sys2Proof

/-! ## The checks of a word (30_encoding.md R131) -/

theorem unless_eq_ok_iff {c : Prop} [Decidable c] {e : Reserved} {x : Except Reserved Instr} {i : Instr} :
    (if c then .error e else x) = .ok i ↔ ¬ c ∧ x = .ok i := by
  split_ifs with h <;> simp [h]

theorem onlyIf_eq_ok_iff {c : Prop} [Decidable c] {e : Reserved} {j i : Instr} :
    (if c then .ok j else .error e) = Except.ok i ↔ c ∧ j = i := by
  split_ifs with h <;> simp [h]

theorem readOf_eq_ok_iff {w : TxWord} {i j : Instr} : readOf w j = .ok i ↔ fieldData w = 0 ∧ j = i :=
  onlyIf_eq_ok_iff

theorem byteWriteOf_eq_ok_iff {w : TxWord} {i j : Instr} :
    byteWriteOf w j = .ok i ↔ dataHigh (fieldData w) = 0 ∧ j = i := onlyIf_eq_ok_iff

/-- A word with no RSV, by its CLS. -/
theorem busWord_of_cls {w : TxWord} {cls : BitVec 4} (hcls : (fieldCls w).toNat = cls.toNat)
    (hrsv : fieldRsv w = 0) : w = busWord cls (fieldDbg w) (fieldAddr w) (fieldData w) := by
  rw [← BitVec.eq_of_toNat_eq hcls, busWord_of_fields hrsv]

/-- A word with no RSV and no DATA, by its CLS. -/
theorem busWord_of_read {w : TxWord} {cls : BitVec 4} (hcls : (fieldCls w).toNat = cls.toNat)
    (hrsv : fieldRsv w = 0) (hdata : fieldData w = 0) : w = busWord cls (fieldDbg w) (fieldAddr w) 0 := by
  rw [← hdata]
  exact busWord_of_cls hcls hrsv

/-- A word with no RSV and one byte of DATA, by its CLS. -/
theorem busWord_of_byteWrite {w : TxWord} {cls : BitVec 4} (hcls : (fieldCls w).toNat = cls.toNat)
    (hrsv : fieldRsv w = 0) (hdata : dataHigh (fieldData w) = 0) :
    w = busWord cls (fieldDbg w) (fieldAddr w) (dataByte (dataLow (fieldData w))) := by
  rw [dataByte_dataLow hdata]
  exact busWord_of_cls hcls hrsv

/-! ## Format BUS (30_encoding.md R122, R123) -/

/-- The words of format BUS and the operations they spell: one form for each CLS. -/
inductive BusForm (w : TxWord) : Instr → Prop
  | read (dbg : Bool) (a : Word) (h : w = busWord 0 dbg a 0) : BusForm w (if dbg then .rdD a else .rd a)
  | write (dbg : Bool) (a : Word) (v : Byte) (h : w = busWord 1 dbg a (dataByte v)) :
    BusForm w (if dbg then .wrD a v else .wr a v)
  | readWord (dbg : Bool) (a : Word) (h : w = busWord 2 dbg a 0) : BusForm w (if dbg then .rdwD a else .rdw a)
  | writeWord (dbg : Bool) (a d : Word) (h : w = busWord 3 dbg a d) :
    BusForm w (if dbg then .wrwD a d else .wrw a d)

theorem decodeBus_eq_ok_iff {w : TxWord} {i : Instr} : decodeBus w = .ok i ↔ BusForm w i := by
  constructor
  · intro h
    simp only [decodeBus, unless_eq_ok_iff, not_not] at h
    obtain ⟨hcls, hrsv, h⟩ := h
    split at h
    case h_1 hc =>
      obtain ⟨hdata, rfl⟩ := readOf_eq_ok_iff.mp h
      exact .read _ _ (busWord_of_read hc hrsv hdata)
    case h_2 hc =>
      obtain ⟨hdata, rfl⟩ := byteWriteOf_eq_ok_iff.mp h
      exact .write _ _ _ (busWord_of_byteWrite hc hrsv hdata)
    case h_3 hc =>
      obtain ⟨hdata, rfl⟩ := readOf_eq_ok_iff.mp h
      exact .readWord _ _ (busWord_of_read hc hrsv hdata)
    case h_4 h0 h1 h2 =>
      rw [imp_false] at h0 h1 h2
      have hc : (fieldCls w).toNat = 3 := by omega
      cases h
      exact .writeWord _ _ _ (busWord_of_cls hc hrsv)
  · rintro (⟨dbg, a, rfl⟩ | ⟨dbg, a, v, rfl⟩ | ⟨dbg, a, rfl⟩ | ⟨dbg, a, d, rfl⟩) <;>
      simp [decodeBus, readOf, byteWriteOf]

/-! ## Format HOST (30_encoding.md R126, R127) -/

theorem decodeHost_eq_ok_iff {w : TxWord} (hcls : fieldCls w = 8) {i : Instr} :
    decodeHost w = .ok i ↔ ∃ hop arg, w = hostWord hop arg ∧ hostOperation hop.toNat arg = .ok i := by
  constructor
  · intro h
    simp only [decodeHost, unless_eq_ok_iff, not_not] at h
    obtain ⟨hrsv, hrsv2, h⟩ := h
    exact ⟨_, _, (hostWord_of_fields hcls hrsv hrsv2).symm, h⟩
  · rintro ⟨hop, arg, rfl, h⟩
    simpa [decodeHost] using h

theorem attachOf_eq_ok_iff {arg : BitVec 17} {i : Instr} :
    attachOf arg = .ok i ↔ arg.toNat ≤ 65536 ∧ .attach arg = i := onlyIf_eq_ok_iff

theorem noArg_eq_ok_iff {arg : BitVec 17} {i j : Instr} : noArg arg j = .ok i ↔ arg = 0 ∧ j = i := onlyIf_eq_ok_iff

/-- A row of the HOP table is encoded with its HOP and its ARG. -/
theorem encode_of_hostOperation {hop : Nat} {arg : BitVec 17} {i : Instr} (h : hostOperation hop arg = .ok i) :
    encode i = hostWord (BitVec.ofNat 8 hop) arg ∧ i.wellFormed = true ∧ i.rowKind = .requester := by
  unfold hostOperation at h
  split at h
  case h_1 =>
    obtain ⟨hsize, rfl⟩ := attachOf_eq_ok_iff.mp h
    exact ⟨rfl, decide_eq_true hsize, rfl⟩
  case h_7 =>
    cases h
    exact ⟨rfl, rfl, rfl⟩
  case h_12 => cases h
  all_goals
    obtain ⟨rfl, rfl⟩ := noArg_eq_ok_iff.mp h
    exact ⟨rfl, rfl, rfl⟩

/-! ## The requester's port -/

/-- A port spells an operation by a word: the word is its encoding, it is well formed and the port admits it. -/
def Spelled (p : Port) (w : TxWord) (i : Instr) : Prop :=
  encode i = w ∧ i.wellFormed = true ∧ p.admits i = true

theorem Port.requester_admits_iff {i : Instr} : Port.requester.admits i = true ↔ i.rowKind = .requester := by
  cases hrow : i.rowKind <;> simp [Port.admits, hrow]

theorem BusForm.encode {w : TxWord} {i : Instr} (h : BusForm w i) :
    encode i = w ∧ i.wellFormed = true ∧ i.rowKind = .requester := by
  rcases h with ⟨dbg, a, rfl⟩ | ⟨dbg, a, v, rfl⟩ | ⟨dbg, a, rfl⟩ | ⟨dbg, a, d, rfl⟩ <;> cases dbg <;>
    exact ⟨rfl, rfl, rfl⟩

theorem BusForm.fieldCls_lt {w : TxWord} {i : Instr} (h : BusForm w i) : (fieldCls w).toNat < 4 := by
  rcases h with ⟨dbg, a, rfl⟩ | ⟨dbg, a, v, rfl⟩ | ⟨dbg, a, rfl⟩ | ⟨dbg, a, d, rfl⟩ <;> simp

/-- CLS alone tells HOST from BUS (30_encoding.md R134). -/
theorem decode_requester_eq_ok_iff {w : TxWord} {i : Instr} :
    decode .requester w = .ok i ↔
      BusForm w i ∨ ∃ hop arg, w = hostWord hop arg ∧ hostOperation hop.toNat arg = .ok i := by
  by_cases hcls : fieldCls w = 8
  · have hbus : ¬ BusForm w i := fun h => by simpa [hcls] using h.fieldCls_lt
    simp only [decode, if_pos hcls, decodeHost_eq_ok_iff hcls, hbus, false_or]
  · have hhost : ¬ ∃ hop arg, w = hostWord hop arg ∧ hostOperation hop.toNat arg = .ok i := by
      rintro ⟨hop, arg, rfl, -⟩
      exact hcls (fieldCls_hostWord hop arg)
    simp only [decode, if_neg hcls, decodeBus_eq_ok_iff, hhost, or_false]

/-- A requester's row is encoded in its format. -/
theorem requesterForm_of_rowKind {i : Instr} (hrow : i.rowKind = .requester) (hwf : i.wellFormed = true) :
    BusForm (encode i) i ∨ ∃ hop arg, encode i = hostWord hop arg ∧ hostOperation hop.toNat arg = .ok i := by
  cases i
  case rd a => exact .inl (.read false a rfl)
  case rdD a => exact .inl (.read true a rfl)
  case wr a v => exact .inl (.write false a v rfl)
  case wrD a v => exact .inl (.write true a v rfl)
  case rdw a => exact .inl (.readWord false a rfl)
  case rdwD a => exact .inl (.readWord true a rfl)
  case wrw a d => exact .inl (.writeWord false a d rfl)
  case wrwD a d => exact .inl (.writeWord true a d rfl)
  case attach size => exact .inr ⟨_, _, rfl, attachOf_eq_ok_iff.mpr ⟨of_decide_eq_true hwf, rfl⟩⟩
  case init | quit | activate | deactivate | event | update | render | tick | load | shutdown =>
    exact .inr ⟨_, _, rfl, rfl⟩
  all_goals exact RowKind.noConfusion hrow

theorem decode_requester_eq_ok_iff_spelled {w : TxWord} {i : Instr} :
    decode .requester w = .ok i ↔ Spelled .requester w i := by
  rw [decode_requester_eq_ok_iff, Spelled, Port.requester_admits_iff]
  constructor
  · rintro (hbus | ⟨hop, arg, rfl, hhost⟩)
    · exact hbus.encode
    · simpa using encode_of_hostOperation hhost
  · rintro ⟨rfl, hwf, hrow⟩
    exact requesterForm_of_rowKind hrow hwf

/-! ## Format DEV (30_encoding.md R124, R125) -/

/-- The row of a read at a device's port. -/
def readRow (k : DeviceKind) (dbg : Bool) (off : Word) : Instr := if dbg then .devRdD off else deviceRead k off

/-- The row of a byte write at a device's port. -/
def writeRow (k : DeviceKind) (dbg : Bool) (off : Word) (v : Byte) : Instr :=
  if dbg then deviceDebugWrite k off v else deviceWrite k off v

/-- The words of format DEV and the operations they spell at a device: a read and a byte write. -/
inductive DeviceForm (k : DeviceKind) (w : TxWord) : Instr → Prop
  | read (dbg : Bool) (off : Word) (h : w = busWord 0 dbg off 0) : DeviceForm k w (readRow k dbg off)
  | write (dbg : Bool) (off : Word) (v : Byte) (h : w = busWord 1 dbg off (dataByte v)) :
    DeviceForm k w (writeRow k dbg off v)

theorem decodeDevice_eq_ok_iff {k : DeviceKind} {w : TxWord} {i : Instr} :
    decodeDevice k w = .ok i ↔ DeviceForm k w i := by
  constructor
  · intro h
    simp only [decodeDevice, unless_eq_ok_iff, not_not] at h
    obtain ⟨hcls, hrsv, h⟩ := h
    split at h
    case h_1 hc =>
      obtain ⟨hdata, rfl⟩ := readOf_eq_ok_iff.mp h
      exact .read _ _ (busWord_of_read hc hrsv hdata)
    case h_2 h0 =>
      rw [imp_false] at h0
      have hc : (fieldCls w).toNat = 1 := by omega
      obtain ⟨hdata, rfl⟩ := byteWriteOf_eq_ok_iff.mp h
      exact .write _ _ _ (busWord_of_byteWrite hc hrsv hdata)
  · rintro (⟨dbg, off, rfl⟩ | ⟨dbg, off, v, rfl⟩) <;>
      simp [decodeDevice, readOf, byteWriteOf, readRow, writeRow]

/-- The GPU register row that a normal read of an offset names is encoded with that offset. -/
theorem encode_of_gpuReadRow {off : Nat} {i : Instr} (h : gpuReadRow off = some i) :
    encode i = busWord 0 false (BitVec.ofNat 16 off) 0 ∧ i.wellFormed = true ∧ i.rowKind = .gpuRegister := by
  unfold gpuReadRow at h
  split at h
  case h_30 => cases h
  all_goals
    cases h
    exact ⟨rfl, rfl, rfl⟩

/-- The GPU register row that a normal write of an offset names is encoded with that offset. -/
theorem encode_of_gpuWriteRow {off : Nat} {v : Byte} {i : Instr} (h : gpuWriteRow off v = some i) :
    encode i = busWord 1 false (BitVec.ofNat 16 off) (dataByte v) ∧ i.wellFormed = true ∧
      i.rowKind = .gpuRegister := by
  unfold gpuWriteRow at h
  split at h
  case h_30 => cases h
  all_goals
    cases h
    exact ⟨rfl, rfl, rfl⟩

theorem spelled_deviceRead (k : DeviceKind) (off : Word) :
    Spelled (.device k) (busWord 0 false off 0) (deviceRead k off) := by
  have plain (h : deviceRead k off = .devRd off) : Spelled (.device k) (busWord 0 false off 0) (deviceRead k off) := by
    rw [h]
    exact ⟨rfl, rfl, beq_iff_eq.mpr h⟩
  cases k
  case gpu =>
    cases hrow : gpuReadRow off.toNat with
    | none => exact plain (by simp [deviceRead, hrow])
    | some i =>
      obtain ⟨henc, hwf, hkind⟩ := encode_of_gpuReadRow hrow
      simpa [Spelled, deviceRead, hrow, Port.admits, hkind, hwf] using henc
  case sys =>
    by_cases hoff : off = 0
    · subst hoff
      exact ⟨rfl, rfl, rfl⟩
    · exact plain (if_neg hoff)
  all_goals exact plain rfl

theorem spelled_deviceWrite (k : DeviceKind) (off : Word) (v : Byte) :
    Spelled (.device k) (busWord 1 false off (dataByte v)) (deviceWrite k off v) := by
  have plain (h : deviceWrite k off v = .devWr off v) :
      Spelled (.device k) (busWord 1 false off (dataByte v)) (deviceWrite k off v) := by
    rw [h]
    exact ⟨rfl, rfl, beq_iff_eq.mpr h⟩
  cases k
  case gpu =>
    cases hrow : gpuWriteRow off.toNat v with
    | none => exact plain (by simp [deviceWrite, hrow])
    | some i =>
      obtain ⟨henc, hwf, hkind⟩ := encode_of_gpuWriteRow hrow
      simpa [Spelled, deviceWrite, hrow, Port.admits, hkind, hwf] using henc
  case sys =>
    by_cases hoff : off = 0
    · subst hoff
      exact ⟨rfl, rfl, rfl⟩
    · exact plain (if_neg hoff)
  case rom => exact ⟨rfl, rfl, rfl⟩
  all_goals exact plain rfl

theorem spelled_deviceDebugWrite (k : DeviceKind) (off : Word) (v : Byte) :
    Spelled (.device k) (busWord 1 true off (dataByte v)) (deviceDebugWrite k off v) := by
  cases k <;> exact ⟨rfl, rfl, rfl⟩

theorem DeviceForm.spelled {k : DeviceKind} {w : TxWord} {i : Instr} (h : DeviceForm k w i) :
    Spelled (.device k) w i := by
  rcases h with ⟨dbg, off, rfl⟩ | ⟨dbg, off, v, rfl⟩ <;> cases dbg
  · exact spelled_deviceRead k off
  · exact ⟨rfl, rfl, rfl⟩
  · exact spelled_deviceWrite k off v
  · exact spelled_deviceDebugWrite k off v

/-- Every GPU register row is named by the offset it is encoded with. -/
theorem gpuRegister_cases {i : Instr} (h : i.rowKind = .gpuRegister) :
    (∃ off, encode i = busWord 0 false off 0 ∧ gpuReadRow off.toNat = some i) ∨
      ∃ off v, encode i = busWord 1 false off (dataByte v) ∧ gpuWriteRow off.toNat v = some i := by
  cases i
  case rdGpuMode | rdGpuRes | rdGpuOptions | rdGpuVidtopMsb | rdGpuVidtopLsb | rdGpuPalIndex | rdGpuPalDataMsb
      | rdGpuPalDataLsb | rdGpuEpalIndex | rdGpuEpalDataMsb | rdGpuEpalDataLsb | rdGpuGlyphIndex | rdGpuGlyphRow0
      | rdGpuGlyphRow1 | rdGpuGlyphRow2 | rdGpuGlyphRow3 | rdGpuGlyphRow4 | rdGpuGlyphRow5 | rdGpuGlyphRow6
      | rdGpuGlyphRow7 | rdGpuBlitAddrMsb | rdGpuBlitAddrLsb | rdGpuBlitPitchMsb | rdGpuBlitPitchLsb
      | rdGpuBlitWidthMsb | rdGpuBlitWidthLsb | rdGpuBlitData | rdGpuCmd | rdGpuError =>
    exact .inl ⟨_, rfl, rfl⟩
  case wrGpuMode | wrGpuRes | wrGpuOptions | wrGpuVidtopMsb | wrGpuVidtopLsb | wrGpuPalIndex | wrGpuPalDataMsb
      | wrGpuPalDataLsb | wrGpuEpalIndex | wrGpuEpalDataMsb | wrGpuEpalDataLsb | wrGpuGlyphIndex | wrGpuGlyphRow0
      | wrGpuGlyphRow1 | wrGpuGlyphRow2 | wrGpuGlyphRow3 | wrGpuGlyphRow4 | wrGpuGlyphRow5 | wrGpuGlyphRow6
      | wrGpuGlyphRow7 | wrGpuBlitAddrMsb | wrGpuBlitAddrLsb | wrGpuBlitPitchMsb | wrGpuBlitPitchLsb
      | wrGpuBlitWidthMsb | wrGpuBlitWidthLsb | wrGpuBlitData | wrGpuCmd | wrGpuError =>
    exact .inr ⟨_, _, rfl, rfl⟩
  all_goals exact RowKind.noConfusion h

theorem DeviceForm.of_readRow {k : DeviceKind} {i : Instr} {dbg : Bool} {off : Word} (hi : readRow k dbg off = i)
    (hw : encode i = busWord 0 dbg off 0) : DeviceForm k (encode i) i := by
  subst hi
  exact .read dbg off hw

theorem DeviceForm.of_writeRow {k : DeviceKind} {i : Instr} {dbg : Bool} {off : Word} {v : Byte}
    (hi : writeRow k dbg off v = i) (hw : encode i = busWord 1 dbg off (dataByte v)) : DeviceForm k (encode i) i := by
  subst hi
  exact .write dbg off v hw

theorem deviceForm_of_gpuRegister {i : Instr} (h : i.rowKind = .gpuRegister) : DeviceForm .gpu (encode i) i := by
  rcases gpuRegister_cases h with ⟨off, hw, hi⟩ | ⟨off, v, hw, hi⟩
  · exact .of_readRow (dbg := false) (by simp [readRow, deviceRead, hi]) hw
  · exact .of_writeRow (dbg := false) (by simp [writeRow, deviceWrite, hi]) hw

/-- A row that a device of a kind spells is named by the word it is encoded by. -/
theorem deviceForm_of_admits {k : DeviceKind} {i : Instr} (h : (Port.device k).admits i = true) :
    DeviceForm k (encode i) i := by
  cases i
  case devRd off => exact .of_readRow (dbg := false) (beq_iff_eq.mp h) rfl
  case devWr off v => exact .of_writeRow (dbg := false) (beq_iff_eq.mp h) rfl
  case devRdD off => exact .of_readRow (dbg := true) rfl rfl
  case devWrD off v =>
    have hrom : k ≠ .rom := bne_iff_ne.mp h
    exact .of_writeRow (dbg := true) (by cases k <;> trivial) rfl
  case romWr off v =>
    obtain rfl : k = .rom := beq_iff_eq.mp h
    exact .of_writeRow (dbg := false) rfl rfl
  case romWrD off v =>
    obtain rfl : k = .rom := beq_iff_eq.mp h
    exact .of_writeRow (dbg := true) rfl rfl
  case rdSysSpeed =>
    obtain rfl : k = .sys := beq_iff_eq.mp h
    exact .of_readRow (dbg := false) (off := 0) rfl rfl
  case wrSysSpeed v =>
    obtain rfl : k = .sys := beq_iff_eq.mp h
    exact .of_writeRow (dbg := false) (off := 0) rfl rfl
  case rd | wr | rdw | wrw | rdD | wrD | rdwD | wrwD | attach | init | quit | activate | deactivate | event | update
      | render | tick | load | shutdown | cmdKnown | cmdUnknown => exact Bool.noConfusion h
  all_goals
    obtain rfl : k = .gpu := beq_iff_eq.mp h
    exact deviceForm_of_gpuRegister rfl

theorem decodeDevice_eq_ok_iff_spelled {k : DeviceKind} {w : TxWord} {i : Instr} :
    decodeDevice k w = .ok i ↔ Spelled (.device k) w i := by
  rw [decodeDevice_eq_ok_iff]
  refine ⟨DeviceForm.spelled, ?_⟩
  rintro ⟨rfl, -, hadm⟩
  exact deviceForm_of_admits hadm

/-! ## Format COP (30_encoding.md R128) -/

/-- The row of a command: the table knows its opcode or does not. -/
def commandRow (known : List Byte) (op : Byte) : Instr :=
  if known.contains op then .cmdKnown op else .cmdUnknown op

theorem decodeCommand_eq_ok_iff {known : List Byte} {w : TxWord} {i : Instr} :
    decodeCommand known w = .ok i ↔ ∃ op, encode (.wrGpuCmd op) = w ∧ commandRow known op = i := by
  constructor
  · intro h
    unfold decodeCommand at h
    split at h
    case h_1 op hd =>
      obtain ⟨hw, -, -⟩ := decodeDevice_eq_ok_iff_spelled.mp hd
      exact ⟨op, hw, by simpa [commandRow] using h⟩
    all_goals cases h
  · rintro ⟨op, rfl, rfl⟩
    have hd : decodeDevice .gpu (encode (.wrGpuCmd op)) = .ok (.wrGpuCmd op) :=
      decodeDevice_eq_ok_iff_spelled.mpr ⟨rfl, rfl, rfl⟩
    rw [decodeCommand, hd]
    rfl

theorem decodeCommand_eq_ok_iff_spelled {known : List Byte} {w : TxWord} {i : Instr} :
    decodeCommand known w = .ok i ↔ Spelled (.coprocessor known) w i := by
  rw [decodeCommand_eq_ok_iff]
  constructor
  · rintro ⟨op, rfl, rfl⟩
    unfold commandRow
    split_ifs with hop
    · exact ⟨rfl, rfl, hop⟩
    · exact ⟨rfl, rfl, by simpa [Port.admits, Instr.rowKind] using hop⟩
  · rintro ⟨rfl, -, hadm⟩
    cases i
    case cmdKnown op => exact ⟨op, rfl, if_pos hadm⟩
    case cmdUnknown op => exact ⟨op, rfl, if_neg (by simpa [Port.admits, Instr.rowKind] using hadm)⟩
    all_goals exact Bool.noConfusion hadm

/-! ## The decoder and the encoder -/

/-- A word decodes at a port to the operations that the port spells by it, and to no other. -/
theorem decode_eq_ok_iff {p : Port} {w : TxWord} {i : Instr} : decode p w = .ok i ↔ Spelled p w i := by
  cases p with
  | requester => exact decode_requester_eq_ok_iff_spelled
  | device k => exact decodeDevice_eq_ok_iff_spelled
  | coprocessor known => exact decodeCommand_eq_ok_iff_spelled

/-- Settles O1: the operation is the one that the port spells by its encoding. -/
theorem decodeEncodesBack : Obligations.DecodeEncodesBack :=
  fun _ _ hadm hwf => decode_eq_ok_iff.mpr ⟨rfl, hwf, hadm⟩

/-- Settles O2: what a word decodes to is spelled by it. -/
theorem encodeDecodesBack : Obligations.EncodeDecodesBack := fun _ _ _ h => decode_eq_ok_iff.mp h

/-- Settles O4: each word is the encoding of its operation, which its port spells, but for the two reserved ones: a
nonzero RSV2 and an ATTACH size above 65536. -/
theorem specWordsDecode : Obligations.SpecWordsDecode := by
  have spelled {p : Port} {w : TxWord} {i : Instr} (hw : encode i = w) (hwf : i.wellFormed = true)
      (hadm : p.admits i = true) : decode p w = .ok i := decode_eq_ok_iff.mpr ⟨hw, hwf, hadm⟩
  exact ⟨spelled rfl rfl rfl, spelled rfl rfl rfl, spelled rfl rfl rfl, spelled rfl rfl rfl, spelled rfl rfl rfl,
    spelled rfl rfl rfl, spelled rfl rfl rfl, spelled rfl rfl rfl, rfl, rfl, spelled rfl rfl rfl,
    spelled rfl rfl rfl, spelled rfl rfl rfl, spelled rfl rfl rfl, spelled rfl rfl rfl⟩

end Sys2Proof
end

section
/-! PROOFS. Reserved words spell no operation (30_encoding.md R131). -/

namespace Sys2Proof.Machine

/-- The reserved words, by the fields of the word. -/
theorem reservedWord_iff (w : TxWord) :
    ReservedWord w ↔
      (4 ≤ (fieldCls w).toNat ∧ (fieldCls w).toNat ≠ 8) ∨
      ((fieldCls w).toNat < 4 ∧ fieldRsv w ≠ 0) ∨
      ((fieldCls w).toNat = 8 ∧ (fieldHostRsv w ≠ 0 ∨ fieldRsv2 w ≠ 0)) ∨
      ((fieldCls w).toNat = 1 ∧ dataHigh (fieldData w) ≠ 0) ∨
      (((fieldCls w).toNat = 0 ∨ (fieldCls w).toNat = 2) ∧ fieldData w ≠ 0) ∨
      ((fieldCls w).toNat = 8 ∧ ((fieldHop w).toNat = 0 ∨ 0x0B < (fieldHop w).toNat)) ∨
      ((fieldCls w).toNat = 8 ∧ (fieldHop w).toNat = 0x01 ∧ 65536 < (fieldArg w).toNat) ∨
      ((fieldCls w).toNat = 8 ∧ (fieldHop w).toNat ≠ 0x01 ∧ (fieldHop w).toNat ≠ 0x07 ∧ fieldArg w ≠ 0) := by
  have hhigh : w.extractLsb' 8 8 = dataHigh (fieldData w) := by
    unfold dataHigh fieldData
    ext k hk
    simp
  have harg : (w.extractLsb' 0 17).toNat ≠ 0 ↔ fieldArg w ≠ 0 := not_congr (BitVec.toNat_inj (y := 0))
  simp only [ReservedWord, hhigh, harg]
  rfl

theorem decodeBus_accepts_iff {w : TxWord} :
    (∃ i, decodeBus w = .ok i) ↔
      (fieldCls w).toNat < 4 ∧ fieldRsv w = 0 ∧
      ((fieldCls w).toNat = 1 → dataHigh (fieldData w) = 0) ∧
      ((fieldCls w).toNat = 0 ∨ (fieldCls w).toNat = 2 → fieldData w = 0) := by
  simp only [decodeBus, unless_eq_ok_iff, not_not, exists_and_left, not_le]
  refine and_congr_right fun hcls => and_congr_right fun _ => ?_
  split <;> simp_all [readOf_eq_ok_iff, byteWriteOf_eq_ok_iff]

theorem hostOperation_accepts_iff {hop : Nat} {arg : BitVec 17} :
    (∃ i, hostOperation hop arg = .ok i) ↔
      hop ≠ 0 ∧ hop ≤ 0x0B ∧ (hop = 0x01 → arg.toNat ≤ 65536) ∧ (hop ≠ 0x01 → hop ≠ 0x07 → arg = 0) := by
  unfold hostOperation
  split
  case h_1 => simp [attachOf_eq_ok_iff]
  case h_7 => simp
  case h_12 =>
    have hout : hop = 0 ∨ 0x0B < hop := by grind
    exact iff_of_false (by simp) (by omega)
  all_goals simp [noArg_eq_ok_iff]

theorem decodeHost_accepts_iff {w : TxWord} :
    (∃ i, decodeHost w = .ok i) ↔
      fieldHostRsv w = 0 ∧ fieldRsv2 w = 0 ∧ (fieldHop w).toNat ≠ 0 ∧ (fieldHop w).toNat ≤ 0x0B ∧
      ((fieldHop w).toNat = 0x01 → (fieldArg w).toNat ≤ 65536) ∧
      ((fieldHop w).toNat ≠ 0x01 → (fieldHop w).toNat ≠ 0x07 → fieldArg w = 0) := by
  simp only [decodeHost, unless_eq_ok_iff, not_not, exists_and_left, hostOperation_accepts_iff]

/-- A word spells an operation at the bus exactly where it is not reserved. -/
theorem decode_requester_accepts_iff {w : TxWord} : (∃ i, decode .requester w = .ok i) ↔ ¬ ReservedWord w := by
  rw [reservedWord_iff]
  by_cases hcls : fieldCls w = 8
  · have hcls' : (fieldCls w).toNat = 8 := by rw [hcls]; rfl
    simp only [decode, if_pos hcls, decodeHost_accepts_iff, hcls']
    grind
  · have hcls' : (fieldCls w).toNat ≠ 8 := fun h => hcls (BitVec.eq_of_toNat_eq h)
    simp only [decode, if_neg hcls, decodeBus_accepts_iff, hcls']
    grind

/-- A request whose word spells no operation waits for nothing and is refused. -/
theorem step_of_reserved {s : State} {r : Request} {rest : List Entry} {e : Reserved}
    (hin : s.inbox = .request r :: rest) (he : s.decodeRequest r = .error e) :
    step s = .refused (.reservedWord e) := by
  have hnext : s.nextEntries = .request r :: rest := by simp only [State.nextEntries, hin, he]
  simp only [step, hnext, he]

/-- Settles O3: the step refuses what the requester's decoder refuses. -/
theorem reservedWordsRefused : Obligations.ReservedWordsRefused := by
  intro s r rest hin hp
  have hdecode : s.decodeRequest r = decode .requester r.word := by
    simp only [State.decodeRequest, State.decoderPort, hp]
  rw [hdecode]
  refine ⟨fun hres => ?_, decode_requester_accepts_iff.mpr⟩
  cases he : decode .requester r.word with
  | ok i => exact absurd hres (decode_requester_accepts_iff.mp ⟨i, he⟩)
  | error e => exact ⟨e, step_of_reserved hin (hdecode.trans he)⟩

end Sys2Proof.Machine
end

section
/-! PROOFS. Where an operation at a device's port stops (30_encoding.md R125, R128; 41_device.md R203; log 17). -/

namespace Sys2Proof.Machine

/-! ## The ports -/

section ports

variable {s : State} {d : Device} {off : Word} {row : Device → Bool} {act : Nat → Device → State → State}

theorem State.BusOpen.atDevice_none (h : s.BusOpen) (hd : s.devs[s.target]? = none) (k : DeviceKind)
    (reg : Nat → State → State) : s.atDevice k reg = .fault .noSuchByte := by
  rw [State.atDevice, h.whenAdmitted, hd]

theorem State.BusOpen.atDevice_otherKind (h : s.BusOpen) (hd : s.devs[s.target]? = some d) {k : DeviceKind}
    (hk : d.kind ≠ k) (reg : Nat → State → State) : s.atDevice k reg = .refused .otherRow := by
  rw [State.atDevice, h.whenAdmitted, hd]
  exact if_neg hk

/-- A generic row finds no byte where no device has one at its offset. -/
theorem State.BusOpen.atByte_outside (h : s.BusOpen)
    (hd : ∀ d, s.devs[s.target]? = some d → d.range.size ≤ off.toNat) :
    s.atByte off row act = .fault .noSuchByte := by
  rw [State.atByte, h.whenAdmitted]
  split
  · next d hsome => exact if_neg (Nat.not_lt.mpr (hd d hsome))
  · rfl

theorem State.BusOpen.atByte_otherRow (h : s.BusOpen) (hd : s.devs[s.target]? = some d)
    (ho : off.toNat < d.range.size) (hrow : row d = false) : s.atByte off row act = .refused .otherRow := by
  rw [State.atByte, h.whenAdmitted, hd]
  simp [ho, hrow]

end ports

/-! ## The rows -/

/-- Every register row of the GPU is a row at a GPU. -/
theorem exec_gpuRegister {i : Instr} (h : i.rowKind = .gpuRegister) (s : State) :
    ∃ act, exec i s = s.atDevice .gpu act := by
  cases i <;> dsimp only [exec]
  case rd | wr | rdw | wrw | rdD | wrD | rdwD | wrwD | attach | init | quit | activate | deactivate | event | update
      | render | tick | load | shutdown | devRd | devWr | devRdD | devWrD | romWr | romWrD | cmdKnown | cmdUnknown
      | rdSysSpeed | wrSysSpeed => exact RowKind.noConfusion h
  all_goals exact ⟨_, rfl⟩

/-- Every register row of the SYS device is a row at one. -/
theorem exec_sysRegister {i : Instr} (h : i.rowKind = .sysRegister) (s : State) :
    ∃ act, exec i s = s.atDevice .sys act := by
  cases i <;> dsimp only [exec]
  case rdSysSpeed | wrSysSpeed => exact ⟨_, rfl⟩
  all_goals exact RowKind.noConfusion h

/-- Every generic row is a row at a byte. -/
theorem exec_genericRow {i : Instr} {off : Word} {v : Byte}
    (h : i ∈ [Instr.devRd off, .devWr off v, .devRdD off, .devWrD off v, .romWr off v, .romWrD off v]) (s : State) :
    ∃ row act, exec i s = s.atByte off row act := by
  simp only [List.mem_cons, List.not_mem_nil, or_false] at h
  rcases h with rfl | rfl | rfl | rfl | rfl | rfl <;> dsimp only [exec] <;> exact ⟨_, _, rfl⟩

/-- A command row at an opcode that spells it is a row at a GPU (30_encoding.md R128). -/
theorem exec_cmdKnown {s : State} {op : Byte} (h : s.commandEntry op ≠ none) :
    ∃ act, exec (.cmdKnown op) s = s.atDevice .gpu act := by
  obtain ⟨e, he⟩ := Option.ne_none_iff_exists'.mp h
  exact ⟨fun j t => t.dispatchKnown j Config.handler e, by simp only [exec, execCmdKnown, he]⟩

theorem exec_cmdUnknown {s : State} {op : Byte} (h : s.commandEntry op = none) :
    ∃ act, exec (.cmdUnknown op) s = s.atDevice .gpu act :=
  ⟨fun j t => t.dispatchUnknown j, by simp only [exec, execCmdUnknown, h]⟩

theorem exec_cmdKnown_of_unknown {s : State} {op : Byte} (h : s.commandEntry op = none) :
    exec (.cmdKnown op) s = .refused .otherRow := by
  simp only [exec, execCmdKnown, h]

theorem exec_cmdUnknown_of_known {s : State} {op : Byte} (h : s.commandEntry op ≠ none) :
    exec (.cmdUnknown op) s = .refused .otherRow := by
  obtain ⟨e, he⟩ := Option.ne_none_iff_exists'.mp h
  simp only [exec, execCmdUnknown, he]

/-- The GPU's bytes with handlers of both kinds (41_device.md R203). -/
theorem gpu_handlers_of_mem {off : Nat}
    (h : off ∈ [0x06, 0x07, 0x09, 0x0A, 0x0C, 0x0D, 0x0E, 0x0F, 0x10, 0x11, 0x12, 0x13, 0x1A]) :
    hasReadHandler .gpu off = true ∧ hasWriteHandler .gpu off = true := by
  revert off
  decide

/-- The GPU's bytes with a write handler alone (41_device.md R203). -/
theorem gpu_writeHandler_of_mem {off : Nat} (h : off ∈ [0x00, 0x01, 0x02, 0x03, 0x04, 0x18, 0x19, 0x1B, 0x1C]) :
    hasWriteHandler .gpu off = true := by
  revert off
  decide

/-! ## The generic rows at another row's byte -/

section bytes

variable {s : State} {d : Device} {off : Word}

theorem exec_devRd_otherRow (hs : s.BusOpen) (hd : s.devs[s.target]? = some d) (ho : off.toNat < d.range.size)
    (h : hasReadHandler d.kind off.toNat = true) : exec (.devRd off) s = .refused .otherRow := by
  dsimp only [exec, execDevRd]
  exact hs.atByte_otherRow hd ho (by simp [h])

theorem exec_devWr_otherRow (hs : s.BusOpen) (hd : s.devs[s.target]? = some d) (ho : off.toNat < d.range.size)
    (v : Byte) (h : d.kind = .rom ∨ hasWriteHandler d.kind off.toNat = true) :
    exec (.devWr off v) s = .refused .otherRow := by
  dsimp only [exec, execDevWr]
  exact hs.atByte_otherRow hd ho (by rcases h with h | h <;> simp [h])

theorem exec_rom_otherRow (hs : s.BusOpen) (hd : s.devs[s.target]? = some d) (ho : off.toNat < d.range.size)
    (v : Byte) (h : d.kind ≠ .rom) :
    exec (.romWr off v) s = .refused .otherRow ∧ exec (.romWrD off v) s = .refused .otherRow := by
  have hrow : (d.kind == .rom) = false := beq_eq_false_iff_ne.mpr h
  dsimp only [exec, execRomWr, execRomWrD]
  exact ⟨hs.atByte_otherRow hd ho hrow, hs.atByte_otherRow hd ho hrow⟩

end bytes

/-- Settles O21: each row is one at a device of a kind, or one at a byte, whose stops are those of the ports. -/
theorem portStops : Obligations.PortStops := by
  intro s off v op i hs
  refine ⟨?_, ?_, ?_, ?_, exec_cmdKnown_of_unknown, exec_cmdUnknown_of_known⟩
  · intro hi hd
    obtain ⟨row, act, he⟩ := exec_genericRow hi s
    exact he.trans (hs.atByte_outside hd)
  · intro hd
    have none {j : Instr} {k : DeviceKind} (hj : ∃ act, exec j s = s.atDevice k act) :
        exec j s = .fault .noSuchByte := by
      obtain ⟨act, he⟩ := hj
      exact he.trans (hs.atDevice_none hd k act)
    exact ⟨fun hi => hi.elim (fun h => none (exec_gpuRegister h s)) fun h => none (exec_sysRegister h s),
      fun h => none (exec_cmdKnown h), fun h => none (exec_cmdUnknown h)⟩
  · intro d hd
    have otherKind {j : Instr} {k : DeviceKind} (hj : ∃ act, exec j s = s.atDevice k act) (hk : d.kind ≠ k) :
        exec j s = .refused .otherRow := by
      obtain ⟨act, he⟩ := hj
      exact he.trans (hs.atDevice_otherKind hd hk act)
    exact ⟨fun h => otherKind (exec_gpuRegister h s), fun h => otherKind (exec_sysRegister h s),
      fun hk => ⟨fun h => otherKind (exec_cmdKnown h) hk, fun h => otherKind (exec_cmdUnknown h) hk⟩⟩
  · intro d hd ho
    have write := exec_devWr_otherRow hs hd ho v
    refine ⟨fun hk hoff => ?_, fun hk hoff => ?_, fun hk hoff => ?_, fun hk => write (.inl hk),
      exec_rom_otherRow hs hd ho v⟩
    · obtain ⟨hread, hwrite⟩ := gpu_handlers_of_mem hoff
      exact ⟨exec_devRd_otherRow hs hd ho (hk ▸ hread), write (.inr (hk ▸ hwrite))⟩
    · exact write (.inr (hk ▸ gpu_writeHandler_of_mem hoff))
    · exact write (.inr (by rw [hk, hoff]; rfl))

end Sys2Proof.Machine
end

section
/-! PROOFS. The palette pseudo-instructions on the bus, for a GPU at any base (30_encoding.md R135, R136;
42_gpu_registers.md R238 to R241). -/

namespace Sys2Proof.Machine

/-! ## The registers of a GPU on the bus -/

/-- The bus is open and the i-th device is a GPU at a base. -/
structure State.GpuAt (s : State) (base : Word) (i : Nat) : Prop where
  bus : s.BusOpen
  inv : s.Inv
  device : ∃ d, s.devs[i]? = some d ∧ d.kind = .gpu ∧ d.range.base = base.toNat

section registers

variable {s : State} {base : Word} {i off : Nat}

/-- A register address does not wrap: the GPU's block ends inside the bus. -/
theorem State.GpuAt.registerAddr_toNat (h : s.GpuAt base i) (ho : off < gpuBlockSize) :
    (registerAddr base off).toNat = base.toNat + off := by
  obtain ⟨d, hd, hk, hbase⟩ := h.device
  have hblock := (h.inv.sound hd).2.2.1 hk
  have hend := (h.inv.base_le (List.mem_of_getElem? hd)).1
  rw [gpuBlockSize] at ho hblock
  rw [registerAddr, BitVec.toNat_add, BitVec.toNat_ofNat]
  omega

theorem registerAddr_succ (base : Word) (off : Nat) : registerAddr base off + 1 = registerAddr base (off + 1) := by
  rw [registerAddr, registerAddr, BitVec.add_assoc, BitVec.ofNat_add]
  rfl

theorem State.GpuAt.maps (h : s.GpuAt base i) (ho : off < gpuBlockSize) :
    ∃ d, s.Maps (registerAddr base off) i d ∧ d.kind = .gpu ∧ (registerAddr base off).toNat - d.range.base = off := by
  have haddr := h.registerAddr_toNat ho
  obtain ⟨d, hd, hk, hbase⟩ := h.device
  have hblock := (h.inv.sound hd).2.2.1 hk
  exact ⟨d, ⟨hd, by omega, by omega⟩, hk, by omega⟩

/-- A write of a register on the bus is the GPU's write of its offset. -/
theorem State.GpuAt.busWrite_register (h : s.GpuAt base i) (ho : off < gpuBlockSize) (v : Byte) :
    busWrite (registerAddr base off) v false s = gpuWrite i off v s := by
  obtain ⟨d, hm, hk, hoff⟩ := h.maps ho
  rw [busWrite_of_maps h.inv hm, hk, hoff]
  rfl

/-- A read of a register on the bus is the GPU's read of its offset. -/
theorem State.GpuAt.busRead_register (h : s.GpuAt base i) (ho : off < gpuBlockSize) :
    busRead (registerAddr base off) false s = gpuRead i off s := by
  obtain ⟨d, hm, hk, hoff⟩ := h.maps ho
  rw [busRead_of_maps h.inv hm, hk, hoff]
  rfl

/-- Writes of its registers leave the GPU where it is. -/
theorem State.GpuAt.after_gpuWrite (h : s.GpuAt base i) (ho : off < gpuBlockSize) (v : Byte) :
    (gpuWrite i off v s).GpuAt base i := by
  have hreach := gpuWrite_reaches i off v s
  refine ⟨?_, h.busWrite_register ho v ▸ h.inv.busWrite _ v false, ?_⟩
  · rw [State.BusOpen, hreach.fault, hreach.phase]
    exact h.bus
  · obtain ⟨d, hd, hk, hbase⟩ := h.device
    obtain ⟨e, he, hek, her⟩ := hreach.devices.getElem? hd
    exact ⟨e, he, hek.trans hk, (congrArg _ her).trans hbase⟩

end registers

/-! ## Runs of operations -/

theorem run_cons {i : Instr} {rest : List Instr} {s t : State} (h : exec i s = .next t) :
    run (i :: rest) s = run rest t := by
  simp only [run, h]

theorem State.BusOpen.exec_wr {s : State} (h : s.BusOpen) (a : Word) (v : Byte) :
    exec (.wr a v) s = .next (busWrite a v false s) := h.whenAdmitted _

theorem State.BusOpen.exec_wrw {s : State} (h : s.BusOpen) (a w : Word) :
    exec (.wrw a w) s = .next (busWriteWord a w false s) := h.whenAdmitted _

theorem State.BusOpen.exec_rdw {s : State} (h : s.BusOpen) (a : Word) :
    exec (.rdw a) s = .next (busReadWord a false s) := h.whenAdmitted _

/-! ## The selected palette entry -/

theorem entry_setEntry {α : Type} (t : Vector α 256) (i j : Byte) (v : α) :
    entry (setEntry t i v) j = if j = i then v else entry t j := by
  simp only [entry, setEntry, Vector.getElem_set, BitVec.toNat_inj, eq_comm]

theorem setEntry_setEntry {α : Type} (t : Vector α 256) (i : Byte) (v w : α) :
    setEntry (setEntry t i v) i w = setEntry t i w := by
  simp [setEntry]

@[simp] theorem State.palEntry_setPalEntry (s : State) (i : Nat) (w : Word) : (s.setPalEntry i w).palEntry i = w := by
  have hindex : (s.setPalEntry i w).devByte i regPalIndex = s.devByte i regPalIndex := rfl
  rw [State.palEntry, hindex, State.setPalEntry_gpu, entry_setEntry, if_pos rfl]

@[simp] theorem State.setPalEntry_setPalEntry (s : State) (i : Nat) (v w : Word) :
    (s.setPalEntry i v).setPalEntry i w = s.setPalEntry i w := by
  have hindex : (s.setPalEntry i v).devByte i regPalIndex = s.devByte i regPalIndex := rfl
  rw [State.setPalEntry, hindex, State.setPalEntry_gpu, setEntry_setEntry]
  rfl

/-- The high byte and then the low byte of a colour replace the selected entry (42_gpu_registers.md R240, R241). -/
theorem writePalLsb_writePalMsb (i : Nat) (w : Word) (s : State) :
    writePalLsb i (lo8 w) (writePalMsb i (hi8 w) s) = s.setPalEntry i w := by
  rw [writePalLsb, writePalMsb, State.palEntry_setPalEntry, State.setPalEntry_setPalEntry, hi8_be16, be16_hi8_lo8]

/-! ## SETPAL and GETPAL -/

section palette

variable {s : State} {base : Word} {i : Nat}

theorem State.GpuAt.exec_palIndex (h : s.GpuAt base i) (j : Byte) :
    exec (.wr (registerAddr base regPalIndex) j) s = .next (s.setDevByte i regPalIndex j) := by
  rw [h.bus.exec_wr, h.busWrite_register (by decide)]
  rfl

theorem State.GpuAt.after_palIndex (h : s.GpuAt base i) (j : Byte) :
    (s.setDevByte i regPalIndex j).GpuAt base i := h.after_gpuWrite (off := regPalIndex) (by decide) j

/-- A word write of GPU_PAL_DATA replaces the selected entry. -/
theorem State.GpuAt.exec_palData (h : s.GpuAt base i) (w : Word) :
    exec (.wrw (registerAddr base 0x06) w) s = .next (s.setPalEntry i w) := by
  have hmsb : (writePalMsb i (hi8 w) s).GpuAt base i := h.after_gpuWrite (off := 0x06) (by decide) _
  rw [h.bus.exec_wrw, busWriteWord, registerAddr_succ, h.busWrite_register (by decide), ← writePalLsb_writePalMsb]
  exact congrArg _ (hmsb.busWrite_register (by decide) _)

theorem State.GpuAt.after_setPalEntry (h : s.GpuAt base i) (w : Word) : (s.setPalEntry i w).GpuAt base i := by
  rw [← writePalLsb_writePalMsb]
  exact (h.after_gpuWrite (off := 0x06) (by decide) (hi8 w)).after_gpuWrite (off := 0x07) (by decide) (lo8 w)

/-- A word read of GPU_PAL_DATA answers the selected entry. -/
theorem State.GpuAt.exec_readPalData (h : s.GpuAt base i) :
    exec (.rdw (registerAddr base 0x06)) s = .next (s.respond (.word (s.palEntry i))) := by
  have hmsb : busRead (registerAddr base 0x06) false s = (hi8 (s.palEntry i), s) := h.busRead_register (by decide)
  have hlsb : busRead (registerAddr base 0x07) false s = (lo8 (s.palEntry i), s) := h.busRead_register (by decide)
  rw [h.bus.exec_rdw, busReadWord, registerAddr_succ, hmsb, hlsb, be16_hi8_lo8]

theorem State.GpuAt.palIndex_setDevByte (h : s.GpuAt base i) (j : Byte) :
    (s.setDevByte i regPalIndex j).devByte i regPalIndex = j := by
  obtain ⟨d, hd, -, -⟩ := h.device
  exact State.devByte_setDevByte_self hd (h.inv.sound hd).1 regPalIndex j

/-- SETPAL replaces the entry it names. -/
theorem State.GpuAt.run_setPal (h : s.GpuAt base i) (j : Byte) (w : Word) (rest : List Instr) :
    run ((Pseudo.setPal j w).expand base ++ rest) s = run rest ((s.setDevByte i regPalIndex j).setPalEntry i w) := by
  have hset := h.after_palIndex j
  exact (run_cons (h.exec_palIndex j)).trans (run_cons (hset.exec_palData w))

/-- GETPAL answers the entry it names. -/
theorem State.GpuAt.run_getPal (h : s.GpuAt base i) (j : Byte) :
    run ((Pseudo.getPal j).expand base) s =
      .next ((s.setDevByte i regPalIndex j).respond (.word (entry s.gpu.palette j))) := by
  have hset := h.after_palIndex j
  have hentry : (s.setDevByte i regPalIndex j).palEntry i = entry s.gpu.palette j := by
    rw [State.palEntry, h.palIndex_setDevByte j]
    rfl
  rw [← hentry]
  exact (run_cons (h.exec_palIndex j)).trans (run_cons hset.exec_readPalData)

/-- After SETPAL the entry it names holds the colour, and every other entry is as before. -/
theorem State.GpuAt.entry_after_setPal (h : s.GpuAt base i) (j : Byte) (w : Word) (k : Byte) :
    entry ((s.setDevByte i regPalIndex j).setPalEntry i w).gpu.palette k =
      if k = j then w else entry s.gpu.palette k := by
  rw [State.setPalEntry_gpu, h.palIndex_setDevByte j]
  exact entry_setEntry _ _ _ _

end palette

/-- Settles O25: SETPAL replaces the entry j, and GETPAL answers it. -/
theorem paletteRoundTrip : Obligations.PaletteRoundTrip := by
  intro s j w base i d hs hinv hm hk hbase
  have hgpu : s.GpuAt base i := ⟨hs, hinv, d, hm.1, hk, hbase⟩
  have hset := (hgpu.after_palIndex j).after_setPalEntry w
  have hentry := hgpu.entry_after_setPal j w
  have hj := (hentry j).trans (if_pos rfl)
  refine ⟨_, (hgpu.run_setPal j w _).trans (hset.run_getPal j), ?_, hj, fun k hne => ?_⟩
  · rw [hj]
    rfl
  · exact (hentry k).trans (if_neg hne)

end Sys2Proof.Machine
end

section
/-! PROOFS. The transactions of the bus: routing, open bus, a byte transaction as the row of the device it is routed
to, and a word transaction as two byte transactions (40_bus.md R163 to R171, R181). -/

namespace Sys2Proof.Machine

/-! ## Routing (40_bus.md R163) -/

theorem State.Inv.select_eq_some_iff {s : State} (h : s.Inv) {a : Word} {i : Nat} :
    s.select a = some i ↔ ∃ d, s.Maps a i d :=
  ⟨State.select_maps, fun ⟨_, hm⟩ => h.select_eq hm⟩

/-- Settles O8: `select` finds the device whose range contains the address, and a contiguous layout has no second. -/
theorem routingIsTheIntervalTest : Obligations.RoutingIsTheIntervalTest := by
  intro s a h
  refine ⟨fun i => h.select_eq_some_iff, State.select_eq_none_iff, fun i j d e hi hj => ?_⟩
  obtain ⟨hd, hlo, hhi⟩ := hi
  obtain ⟨he, hj⟩ := hj
  exact ⟨h.layout.unique hd he ⟨hlo, hhi⟩ hj, by omega⟩

/-! ## Open bus (40_bus.md R165) -/

theorem busRead_of_unmapped {s : State} {a : Word} (h : s.Unmapped a) (dbg : Bool) :
    busRead a dbg s = (openBus, s) := by
  simp only [busRead, State.select_eq_none_iff.mpr h]

theorem busWrite_of_unmapped {s : State} {a : Word} (h : s.Unmapped a) (v : Byte) (dbg : Bool) :
    busWrite a v dbg s = s := by
  simp only [busWrite, State.select_eq_none_iff.mpr h]

/-- Settles O9: no device is selected, so a read answers the open bus and a write finds nothing to change.
(`openBus` itself is the model's name of the byte.) -/
theorem openBus_obligation : Obligations.OpenBus := by
  intro s a v hs hun
  have hread (dbg : Bool) : busReadByte a dbg s = Answered s (.byte 0xCC) := by
    rw [busReadByte, busRead_of_unmapped hun]
    rfl
  have hwrite (dbg : Bool) : busWrite a v dbg s = s := busWrite_of_unmapped hun v dbg
  obtain ⟨hrd, hwr⟩ := hs.exec_byte a v false
  obtain ⟨hrdD, hwrD⟩ := hs.exec_byte a v true
  rw [hread] at hrd hrdD
  rw [hwrite] at hwr hwrD
  exact ⟨hrd, hrdD, hwr, hwrD⟩

/-! ## The model's own fields through a device

An access at a device neither reads nor writes the target of a DEV word and the responses given so far. -/

section ownFields

variable (s : State) (i j : Nat) (l : List Response)

theorem gpuRead_ownFields (off : Nat) :
    gpuRead i off { s with target := j, resp := l } =
      ((gpuRead i off s).1, { (gpuRead i off s).2 with target := j, resp := l }) := by
  unfold gpuRead
  split <;> rfl

theorem devRead_ownFields (k : DeviceKind) (off : Nat) (dbg : Bool) :
    devRead k i off dbg { s with target := j, resp := l } =
      ((devRead k i off dbg s).1, { (devRead k i off dbg s).2 with target := j, resp := l }) := by
  cases dbg
  case true => rfl
  case false =>
    cases k
    case gpu => exact gpuRead_ownFields s i j l off
    all_goals rfl

theorem busRead_ownFields (a : Word) (dbg : Bool) :
    busRead a dbg { s with target := j, resp := l } =
      ((busRead a dbg s).1, { (busRead a dbg s).2 with target := j, resp := l }) := by
  rcases busRead_cases a dbg s with ⟨hun, h⟩ | ⟨i, d, hsel, hm, h⟩ <;> rw [h]
  · exact busRead_of_unmapped (s := { s with target := j, resp := l }) hun dbg
  · rw [← devRead_ownFields]
    simp only [busRead, show ({ s with target := j, resp := l } : State).select a = some i from hsel, hm.1]

theorem State.runPass_target (m r : Byte) :
    ({ s with target := j } : State).runPass i m r = { s.runPass i m r with target := j } := by
  have hpass : decodePass s.cfg ({ s with target := j } : State).videoBase
      (({ s with target := j } : State).devByte i regOptions) m r =
      decodePass s.cfg s.videoBase (s.devByte i regOptions) m r := rfl
  rw [State.runPass, State.runPass, hpass]
  cases decodePass s.cfg s.videoBase (s.devByte i regOptions) m r <;> rfl

theorem State.runHandler_target (f : HandlerView → HandlerResult) :
    ({ s with target := j } : State).runHandler i f = { s.runHandler i f with target := j } := by
  have hview : ({ s with target := j } : State).handlerView i = s.handlerView i := rfl
  rw [State.runHandler, State.runHandler, hview]
  cases f (s.handlerView i) <;> rfl

theorem State.dispatchWith_target (hs : Nat → HandlerView → HandlerResult) (op : Byte) :
    ({ s with target := j } : State).dispatchWith i hs op = { s.dispatchWith i hs op with target := j } := by
  have hentry : ({ s with target := j } : State).commandEntry op = s.commandEntry op := rfl
  rw [State.dispatchWith, State.dispatchWith, hentry]
  cases s.commandEntry op with
  | none => rfl
  | some e => exact congrArg (fun t : State => t.clearCommand i) (s.runHandler_target i j (hs e.handler))

theorem gpuWrite_target (off : Nat) (v : Byte) :
    gpuWrite i off v { s with target := j } = { gpuWrite i off v s with target := j } := by
  unfold gpuWrite
  split
  case h_1 => exact State.runPass_target (s.setDevByte i regMode v).markDirty i j _ _
  case h_2 => exact State.runPass_target (s.setDevByte i regRes v).markDirty i j _ _
  case h_21 => exact s.dispatchWith_target i j _ v
  all_goals rfl

theorem devWrite_target (k : DeviceKind) (off : Nat) (v : Byte) (dbg : Bool) :
    devWrite k i off v dbg { s with target := j } = { devWrite k i off v dbg s with target := j } := by
  cases dbg
  case true => rfl
  case false =>
    cases k
    case gpu => exact gpuWrite_target s i j off v
    case sys =>
      dsimp only [devWrite]
      split_ifs <;> rfl
    all_goals rfl

end ownFields

/-! ## The rows at a device's port -/

section rows

variable {s : State} {d : Device} {off : Word}

/-- A register row of the GPU that a normal read names is the GPU's read of that offset. -/
theorem exec_of_gpuReadRow {n : Nat} {i : Instr} (h : gpuReadRow n = some i) (s : State) :
    exec i s = s.atDevice .gpu (fun j u => portRead .gpu j n false u) := by
  unfold gpuReadRow at h
  split at h
  case h_30 => cases h
  all_goals
    cases h
    rfl

/-- A register row of the GPU that a normal write names is the GPU's write of that offset. -/
theorem exec_of_gpuWriteRow {n : Nat} {v : Byte} {i : Instr} (h : gpuWriteRow n v = some i) (s : State) :
    exec i s = s.atDevice .gpu (fun j u => gpuWrite j n v u) := by
  unfold gpuWriteRow at h
  split at h
  case h_30 => cases h
  all_goals
    cases h
    rfl

/-- Every offset of the GPU's registers has a read row and a write row (10_state.md R57). -/
theorem le_of_gpuReadRow_eq_none {n : Nat} (h : gpuReadRow n = none) : 0x1D ≤ n := by
  by_contra hlt
  interval_cases n <;> cases h

theorem le_of_gpuWriteRow_eq_none {n : Nat} {v : Byte} (h : gpuWriteRow n v = none) : 0x1D ≤ n := by
  by_contra hlt
  interval_cases n <;> cases h

/-- The GPU's bytes after the register block have no handler (10_state.md R57). -/
theorem gpu_no_handler {n : Nat} (h : 0x1D ≤ n) : hasReadHandler .gpu n = false ∧ hasWriteHandler .gpu n = false :=
  PlainByte.no_handler (.inr (.inr (.inr ⟨rfl, .inr h⟩)))

theorem exec_devRd_of_no_handler (hs : s.BusOpen) (hd : s.devs[s.target]? = some d) (ho : off.toNat < d.range.size)
    (h : hasReadHandler d.kind off.toNat = false) :
    exec (.devRd off) s = .next (portRead d.kind s.target off.toNat false s) := by
  dsimp only [exec, execDevRd]
  rw [hs.atByte hd ho (by simp [h]), portRead, devRead_of_no_handler h]
  split_ifs <;> rfl

theorem exec_devWr_of_no_handler (hs : s.BusOpen) (hd : s.devs[s.target]? = some d) (ho : off.toNat < d.range.size)
    (hk : d.kind ≠ .rom) (h : hasWriteHandler d.kind off.toNat = false) (v : Byte) :
    exec (.devWr off v) s = .next (devWrite d.kind s.target off.toNat v false s) := by
  dsimp only [exec, execDevWr]
  rw [hs.atByte hd ho (by simp [h, hk]), devWrite_of_no_handler h hk]

/-- A normal read row at a device's port is the device's read (30_encoding.md R125; 41_device.md R201). -/
theorem exec_deviceRead (hs : s.BusOpen) (hd : s.devs[s.target]? = some d) (ho : off.toNat < d.range.size) :
    exec (deviceRead d.kind off) s = .next (portRead d.kind s.target off.toNat false s) := by
  have plain := exec_devRd_of_no_handler hs hd ho
  cases hk : d.kind <;> rw [hk] at plain
  case gpu =>
    cases hrow : gpuReadRow off.toNat with
    | some i =>
      rw [deviceRead, hrow]
      exact (exec_of_gpuReadRow hrow s).trans (State.PortOpen.atDevice ⟨hs, d, hd, hk⟩ _)
    | none =>
      rw [deviceRead, hrow]
      exact plain (gpu_no_handler (le_of_gpuReadRow_eq_none hrow)).1
  case sys =>
    by_cases h0 : off = 0
    · subst h0
      exact State.PortOpen.atDevice ⟨hs, d, hd, hk⟩ fun j u => portRead .sys j regSpeed false u
    · rw [deviceRead, if_neg h0]
      exact plain rfl
  all_goals exact plain rfl

/-- A normal write row at a device's port is the device's write (30_encoding.md R125; 41_device.md R201, R207). -/
theorem exec_deviceWrite (hs : s.BusOpen) (hd : s.devs[s.target]? = some d) (ho : off.toNat < d.range.size) (v : Byte) :
    exec (deviceWrite d.kind off v) s = .next (devWrite d.kind s.target off.toNat v false s) := by
  have plain (hk : d.kind ≠ .rom) (h : hasWriteHandler d.kind off.toNat = false) :=
    exec_devWr_of_no_handler hs hd ho hk h v
  cases hk : d.kind <;> rw [hk] at plain
  case gpu =>
    cases hrow : gpuWriteRow off.toNat v with
    | some i =>
      rw [deviceWrite, hrow]
      exact (exec_of_gpuWriteRow hrow s).trans (State.PortOpen.atDevice ⟨hs, d, hd, hk⟩ _)
    | none =>
      rw [deviceWrite, hrow]
      exact plain (by decide) (gpu_no_handler (le_of_gpuWriteRow_eq_none hrow)).2
  case sys =>
    by_cases h0 : off = 0
    · subst h0
      exact State.PortOpen.atDevice ⟨hs, d, hd, hk⟩ fun j u => devWrite .sys j regSpeed v false u
    · rw [deviceWrite, if_neg h0]
      have hoff : off.toNat ≠ 0 := fun h => h0 (BitVec.eq_of_toNat_eq h)
      exact plain (by decide) (PlainByte.no_handler (.inr (.inr (.inl ⟨rfl, hoff⟩)))).2
  case rom =>
    dsimp only [exec, deviceWrite, execRomWr]
    rw [hs.atByte hd ho (by simp [hk])]
    rfl
  all_goals exact plain (by decide) rfl

theorem exec_devRdD (hs : s.BusOpen) (hd : s.devs[s.target]? = some d) (ho : off.toNat < d.range.size) :
    exec (.devRdD off) s = .next (portRead d.kind s.target off.toNat true s) :=
  hs.atByte hd ho (row := fun _ => true) rfl fun j d u => portRead d.kind j off.toNat true u

theorem exec_deviceDebugWrite (hs : s.BusOpen) (hd : s.devs[s.target]? = some d) (ho : off.toNat < d.range.size)
    (v : Byte) : exec (deviceDebugWrite d.kind off v) s = .next (devWrite d.kind s.target off.toNat v true s) := by
  cases hk : d.kind
  case rom =>
    dsimp only [exec, deviceDebugWrite, execRomWrD]
    rw [hs.atByte hd ho (by simp [hk])]
    rfl
  all_goals exact hs.atByte hd ho (row := fun _ => true) rfl fun j _ u => u.setDevByte j off.toNat v

end rows

/-! ## A byte transaction at a mapped address (40_bus.md R164, R166, R169, R170) -/

/-- The local offset of an address is the distance from the base: the range does not wrap. -/
theorem State.Maps.offset_toNat {s : State} {a : Word} {i : Nat} {d : Device} (hm : s.Maps a i d) :
    (a - BitVec.ofNat 16 d.range.base).toNat = a.toNat - d.range.base := by
  obtain ⟨-, hlo, -⟩ := hm
  have := a.isLt
  rw [BitVec.toNat_sub, BitVec.toNat_ofNat]
  omega

/-- The device's read answered at its port is the read of the bus, but for the target. -/
theorem busReadByte_eq_portRead {s : State} (h : s.Inv) {a : Word} {i : Nat} {d : Device} (hm : s.Maps a i d)
    (j : Nat) (dbg : Bool) :
    busReadByte a dbg s =
      { portRead d.kind i (a.toNat - d.range.base) dbg { s with target := j } with target := s.target } := by
  have htarget := (devRead_reaches d.kind i (a.toNat - d.range.base) dbg s).target
  have hread := devRead_ownFields s i j s.resp d.kind (a.toNat - d.range.base) dbg
  rw [busReadByte, busRead_of_maps h hm, portRead, hread, ← htarget]
  rw [← devRead_resp d.kind i (a.toNat - d.range.base) dbg s]
  rfl

theorem busWrite_eq_devWrite {s : State} (h : s.Inv) {a : Word} {i : Nat} {d : Device} (hm : s.Maps a i d)
    (j : Nat) (v : Byte) (dbg : Bool) :
    busWrite a v dbg s =
      { devWrite d.kind i (a.toNat - d.range.base) v dbg { s with target := j } with target := s.target } := by
  have htarget := (devWrite_reaches d.kind i (a.toNat - d.range.base) v dbg s).target
  rw [busWrite_of_maps h hm, devWrite_target s i j, ← htarget]

/-- Settles O10: the row at the device's port is the device's access, which is the one the bus makes. -/
theorem routedTransactionsAreDeviceRows : Obligations.RoutedTransactionsAreDeviceRows := by
  intro s a v i d hs hinv hm off
  have hoff : off.toNat = a.toNat - d.range.base := hm.offset_toNat
  have hport : State.BusOpen { s with target := i } := hs
  have ho : off.toNat < d.range.size := by
    obtain ⟨-, hlo, hhi⟩ := hm
    omega
  have hread (dbg : Bool) := (hs.exec_byte a v dbg).1.trans (congrArg _ (busReadByte_eq_portRead hinv hm i dbg))
  have hwrite (dbg : Bool) := (hs.exec_byte a v dbg).2.trans (congrArg _ (busWrite_eq_devWrite hinv hm i v dbg))
  rw [← hoff] at hread hwrite
  exact ⟨⟨_, exec_deviceRead hport hm.1 ho, hread false⟩, ⟨_, exec_deviceWrite hport hm.1 ho v, hwrite false⟩,
    ⟨_, exec_devRdD hport hm.1 ho, hread true⟩, ⟨_, exec_deviceDebugWrite hport hm.1 ho v, hwrite true⟩⟩

/-! ## Word transactions (40_bus.md R167, R168, R171, R181) -/

theorem Reaches.busOpen {i : Nat} {s t : State} (h : Reaches i s t) (hs : s.BusOpen) : t.BusOpen := by
  rw [State.BusOpen, h.fault, h.phase]
  exact hs

theorem State.BusOpen.after_busReadByte {s : State} (hs : s.BusOpen) (a : Word) (dbg : Bool) :
    (busReadByte a dbg s).BusOpen :=
  (busReadByte_reaches a dbg s).elim fun _ h => h.busOpen hs

theorem State.BusOpen.after_busWrite {s : State} (hs : s.BusOpen) (a : Word) (v : Byte) (dbg : Bool) :
    (busWrite a v dbg s).BusOpen :=
  (busWrite_reaches a v dbg s).elim fun _ h => h.busOpen hs

theorem busReadByte_resp (a : Word) (dbg : Bool) (s : State) :
    (busReadByte a dbg s).resp = s.resp ++ [.byte (busRead a dbg s).1] := by
  rw [busReadByte, State.respond_resp, busRead_resp]

theorem busRead_target (a : Word) (dbg : Bool) (s : State) : (busRead a dbg s).2.target = s.target :=
  (busRead_reaches a dbg s).elim fun _ h => h.target

/-- A word read is two byte reads, whose two responses are one word, high byte first. -/
theorem busReadWord_eq (a : Word) (dbg : Bool) (s : State) :
    busReadWord a dbg s =
      { busReadByte (a + 1) dbg (busReadByte a dbg s) with
        resp := s.resp ++
          [.word ((busRead a dbg s).1 ++ (busRead (a + 1) dbg (busReadByte a dbg s)).1)] } := by
  have hfirst : busReadByte a dbg s =
      { (busRead a dbg s).2 with target := s.target, resp := s.resp ++ [.byte (busRead a dbg s).1] } := by
    rw [busReadByte, State.respond, busRead_resp, ← busRead_target a dbg s]
  rw [hfirst, busReadByte, busRead_ownFields, busReadWord, State.respond, busRead_resp, busRead_resp,
    ← busRead_target a dbg s, ← busRead_target (a + 1) dbg (busRead a dbg s).2]
  rfl

/-- Debug reads change nothing, so a debug word read answers the bytes of two debug reads of one state. -/
theorem busReadWord_debug (a : Word) (s : State) :
    busReadWord a true s = Answered s (.word ((busRead a true s).1 ++ (busRead (a + 1) true s).1)) := by
  rw [busReadWord, busRead_keeps (.inl rfl), busRead_keeps (.inl rfl)]
  rfl

/-- Settles O11: the reads by `busReadWord_eq` and `busReadWord_debug`, the writes by the definition of the word
write. -/
theorem wordIsTwoByteTransactions : Obligations.WordIsTwoByteTransactions := by
  intro s a w hs
  have debugRead (b : Word) : exec (.rdD b) s = .next (Answered s (.byte (busRead b true s).1)) :=
    (hs.exec_byte b 0 true).1.trans (congrArg _ (busReadByte_of_keeps (busRead_keeps (.inl rfl))))
  refine ⟨⟨_, _, _, _, (hs.exec_byte a 0 false).1, busReadByte_resp a false s,
      ((hs.after_busReadByte a false).exec_byte (a + 1) 0 false).1, busReadByte_resp (a + 1) false _, ?_⟩,
    ⟨_, _, debugRead a, debugRead (a + 1), ?_⟩,
    ⟨_, _, (hs.exec_byte a (hi8 w) false).2, ((hs.after_busWrite a (hi8 w) false).exec_byte (a + 1) (lo8 w) false).2,
      hs.exec_wrw a w⟩,
    ⟨_, _, (hs.exec_byte a (hi8 w) true).2, ((hs.after_busWrite a (hi8 w) true).exec_byte (a + 1) (lo8 w) true).2,
      hs.whenAdmitted _⟩⟩
  · exact (hs.exec_rdw a).trans (congrArg _ (busReadWord_eq a false s))
  · exact (hs.whenAdmitted _).trans (congrArg _ (busReadWord_debug a s))

/-! ## The CPU step (40_bus.md R175) -/

theorem State.LoopOpen.busOpen {s : State} (h : s.LoopOpen) : s.BusOpen := by
  obtain ⟨hf, hp, -⟩ := h
  exact ⟨hf, .inr hp⟩

theorem State.BusOpen.exec_cpuTransaction {s : State} (hs : s.BusOpen) (c : CpuTransaction) :
    exec c.instr s = .next (cpuTransaction c s) ∧ (cpuTransaction c s).BusOpen := by
  cases c with
  | rd a => exact ⟨hs.whenAdmitted _, hs.after_busReadByte a false⟩
  | wr a v => exact ⟨hs.exec_wr a v, hs.after_busWrite a v false⟩
  | rdw a =>
    refine ⟨hs.exec_rdw a, ?_⟩
    dsimp only [cpuTransaction]
    rw [busReadWord_eq]
    exact (hs.after_busReadByte a false).after_busReadByte (a + 1) false
  | wrw a w => exact ⟨hs.exec_wrw a w, (hs.after_busWrite a (hi8 w) false).after_busWrite (a + 1) (lo8 w) false⟩

/-- The operations of a CPU step's transactions, one after another, are the CPU step. -/
theorem State.BusOpen.run_cpuStep {s : State} (hs : s.BusOpen) (l : List CpuTransaction) :
    run (l.map CpuTransaction.instr) s = .next (cpuStep l s) := by
  induction l generalizing s with
  | nil => rfl
  | cons c rest ih =>
    obtain ⟨hexec, hopen⟩ := hs.exec_cpuTransaction c
    exact (run_cons hexec).trans (ih hopen)

/-- Settles O45: TICK is the CPU step of `run_cpuStep` and then the interval. -/
theorem tickRunsTheCpuStep : Obligations.TickRunsTheCpuStep := by
  intro s hs
  exact ⟨cpuStep s.beside.cpu s, hs.busOpen.run_cpuStep s.beside.cpu, hs.whenAdmitted _⟩

/-! ## The speed register (40_bus.md R183, R184) -/

/-- Settles O18: the write handler masks the byte that it stores. -/
theorem speedRegister : Obligations.SpeedRegister := by
  intro s v hs hinv
  obtain ⟨d, hd, -⟩ := hs.2
  have hstores := State.setDevByte_storesByte hd (hinv.sound hd).1 regSpeed (v &&& 0x0F)
  exact ⟨⟨_, hs.atDevice (fun i t => writeSpeed i v t), hstores⟩,
    hs.atDevice fun i t => t.answerByte i regSpeed⟩

end Sys2Proof.Machine
end

section
/-! PROOFS. The host's operations on the bus: ATTACH, and the fan-outs of the lifecycle (40_bus.md R161, R162,
R172 to R174, R177, R178, R180, R182). -/

namespace Sys2Proof.Machine

/-! ## ATTACH (40_bus.md R161, R162) -/

section attach

variable {s : State} {size : BitVec 17}

theorem exec_attach_fits (hf : s.fault = none) (hp : s.phase = .construct)
    (hfit : s.nextFree + s.attachSize size ≤ busSize) (hu : ¬ undersized s.beside.dev (s.attachSize size) = true) :
    exec (.attach size) s = .next (s.appendDevice s.beside.dev (s.attachSize size)) := by
  dsimp only [exec, execAttach]
  rw [State.admit_open hf (by simp [hp]), if_neg (Nat.not_lt.mpr hfit), if_neg hu]

theorem exec_attach_overflows (hf : s.fault = none) (hp : s.phase = .construct)
    (h : busSize < s.nextFree + s.attachSize size) : exec (.attach size) s = .next (s.raise .attachOverflow) := by
  dsimp only [exec, execAttach]
  rw [State.admit_open hf (by simp [hp]), if_pos h]

end attach

/-- The byte that a new device's backing holds: 0x00 in a register block, else the draw (41_device.md R205). -/
theorem State.initialBacking_read (s : State) (k : DeviceKind) (i size off : Nat) :
    (s.initialBacking k i size).read off =
      if k = .gpu ∨ k = .sys then 0x00 else (Memory.ofCells size (s.cfg.ramInit.getD i [])).read off := by
  cases k <;> rfl

/-- Settles O39: the size is the one given or reported, and the device is the one `appendDevice` appends. -/
theorem attachAppends : Obligations.AttachAppends := by
  intro s size sz hf hp hsz hgpu hsys hfit
  have hsize : s.attachSize size = sz := by
    rw [hsz, State.attachSize]
    cases s.beside.dev <;> rfl
  subst hsize
  have hu : ¬ undersized s.beside.dev (s.attachSize size) = true := by
    rw [undersized_iff]
    rintro (⟨hk, hlt⟩ | ⟨hk, hlt⟩)
    · exact Nat.not_lt.mpr (hgpu hk) hlt
    · exact Nat.not_lt.mpr (hsys hk) hlt
  exact ⟨_, _, exec_attach_fits hf hp hfit hu, rfl, rfl, rfl, rfl, s.initialBacking_read _ _ _, rfl⟩

/-- No operation runs after a fatal error (60_exceptions.md R401). -/
theorem exec_ne_next_of_fault {s : State} {r : FatalReason} (h : s.fault = some r) (i : Instr) (u : State) :
    exec i s ≠ .next u := by
  intro he
  obtain ⟨hf, -⟩ := exec_admits he
  rw [h] at hf
  cases hf

/-- Settles O40: the overflow raises its error, which stops every later operation. -/
theorem attachOverflows : Obligations.AttachOverflows := by
  intro s size hf hp h
  exact ⟨_, exec_attach_overflows hf hp h, rfl, rfl, exec_ne_next_of_fault rfl⟩

/-! ## The Activate fan-out (40_bus.md R173; 44_gpu_render.md R332) -/

/-- Where the host creates every surface, no device's callback changes anything. -/
theorem State.fanOut_activate_created {s : State} (h : s.SurfacesCreated) : s.fanOut onActivate = s := by
  refine State.fanOut_induction (p := (· = s)) (fun k i t ht => ?_) s rfl
  subst ht
  by_cases hk : k = .gpu
  · subst hk
    exact (onActivate_gpu i t).1 h
  · exact Callback.run_eq_self (c := .activate) (fun e => absurd e hk) i t

/-- Where it does not, the first GPU's callback raises the error, which ends the fan-out. -/
theorem fanOutFrom_activate_fails {s : State} (hf : s.fault = none) (h : ¬ s.SurfacesCreated) (ks : List DeviceKind)
    (i : Nat) (hgpu : DeviceKind.gpu ∈ ks) : fanOutFrom onActivate ks i s = s.raise .surfaceFailure := by
  induction ks generalizing i with
  | nil => cases hgpu
  | cons k rest ih =>
    have hfan : fanOutFrom onActivate (k :: rest) i s = fanOutFrom onActivate rest (i + 1) (onActivate k i s) := by
      simp only [fanOutFrom, hf]
    rw [hfan]
    by_cases hk : k = .gpu
    · have hraise : onActivate .gpu i s = s.raise .surfaceFailure := (onActivate_gpu i s).2 h
      rw [hk, hraise, fanOutFrom_of_fault rfl]
    · have hself : onActivate k i s = s := Callback.run_eq_self (c := .activate) (fun e => absurd e hk) i s
      rw [hself]
      exact ih (i + 1) ((List.mem_cons.mp hgpu).resolve_left (Ne.symm hk))

theorem State.fanOut_activate_fails {s : State} (hf : s.fault = none) (h : ¬ s.SurfacesCreated)
    (hgpu : ∃ d ∈ s.devs, d.kind = .gpu) : s.fanOut onActivate = s.raise .surfaceFailure :=
  fanOutFrom_activate_fails hf h _ 0 (List.mem_map.mpr hgpu)

/-- Settles O43: the fan-out changes nothing and the phase is entered, or it fails and ends the operation. -/
theorem activate : Obligations.Activate := by
  intro s hs
  have hexec : exec .activate s = .next ((s.fanOut onActivate).unlessFatal State.enterRun) := hs.whenAdmitted _
  rw [hexec]
  refine ⟨fun h => ?_, fun h hgpu => ?_⟩
  · rw [State.fanOut_activate_created h, State.unlessFatal_none hs.1]
    rfl
  · rw [State.fanOut_activate_fails hs.1 h hgpu, State.unlessFatal_some rfl]
    rfl

/-! ## UPDATE (40_bus.md R172) -/

theorem State.fanOut_update (s : State) (dt : BitVec 17) : s.fanOut (onUpdate dt) = s :=
  State.fanOut_noop (fun _ _ _ => rfl) s

theorem State.rebuild_clean {s : State} (h : s.envDirty = false) : s.rebuild = s := by
  rw [State.rebuild, if_neg (by simp [h])]

theorem State.rebuild_dirty {s : State} (h : s.envDirty = true) :
    s.rebuild = (s.fanOut onActivate).unlessFatal State.clearDirty := by
  rw [State.rebuild, if_pos h, s.fanOut_deactivate]

/-- The Update callbacks change nothing, so UPDATE is its rebuild. -/
theorem State.LoopOpen.exec_update {s : State} (hs : s.LoopOpen) (dt : BitVec 17) :
    exec (.update dt) s = .next s.rebuild := by
  refine (hs.whenAdmitted _).trans (congrArg _ ?_)
  exact State.unlessFatal_induction (p := (· = s.rebuild)) rfl (State.fanOut_update _ dt)

/-- Settles O44: UPDATE is its rebuild, which the dirty flag gates. -/
theorem updateDirtyGate : Obligations.UpdateDirtyGate := by
  intro s dt hs
  rw [hs.exec_update dt]
  refine ⟨fun hclean => ?_, fun hdirty h => ?_, fun hdirty h hgpu => ?_⟩
  · rw [State.rebuild_clean hclean]
  · rw [State.rebuild_dirty hdirty, State.fanOut_activate_created h, State.unlessFatal_none hs.1]
    rfl
  · rw [State.rebuild_dirty hdirty, State.fanOut_activate_fails hs.1 h hgpu, State.unlessFatal_some rfl]
    rfl

/-! ## DEACTIVATE, EVENT, SHUTDOWN and QUIT (40_bus.md R174, R177, R178, R180) -/

theorem State.fanOut_event (s : State) (e : HostEvent) : s.fanOut (onEvent e) = s :=
  State.fanOut_noop (fun _ _ _ => rfl) s

/-- No operation is admitted in phase DONE (70_reset_and_hazards.md R447). -/
theorem exec_ne_next_of_done {s : State} (h : s.phase = .done) (i : Instr) (u : State) : exec i s ≠ .next u :=
  fun he => (exec_admits he).phase_ne_done h

/-- Settles O46: the callbacks change nothing, so each operation is its assignment alone. -/
theorem deactivateEventShutdownQuit : Obligations.DeactivateEventShutdownQuit := by
  intro s
  refine ⟨fun hs => ?_, fun hs => ?_, fun hf hp => ?_, fun hs hrun => ⟨?_, exec_ne_next_of_done rfl⟩⟩
  · exact (hs.whenAdmitted _).trans (congrArg _ s.fanOut_deactivate)
  · exact (hs.whenAdmitted _).trans (congrArg _ (s.fanOut_event _))
  · exact State.admit_open hf (by simp [hp]) _
  · refine (State.admit_open hs.1 (by simp [hs.busOpen, hrun]) _).trans ?_
    rw [s.fanOut_quit]

end Sys2Proof.Machine
end

section
/-! PROOFS. The generic rows at a device's port: debug accesses, plain bytes, ROM and OTHER devices (41_device.md R202,
R204, R207, R208, R211). -/

namespace Sys2Proof.Machine

section rows

variable {s : State} {d : Device} {off : Word}

/-! ## Debug accesses (41_device.md R204, R208) -/

theorem exec_devWrD (hs : s.BusOpen) (hd : s.devs[s.target]? = some d) (ho : off.toNat < d.range.size) (v : Byte) :
    exec (.devWrD off v) s = .next (s.setDevByte s.target off.toNat v) :=
  hs.atByte hd ho (row := fun _ => true) rfl fun j _ u => u.setDevByte j off.toNat v

theorem exec_romWrD (hs : s.BusOpen) (hd : s.devs[s.target]? = some d) (ho : off.toNat < d.range.size)
    (hk : d.kind = .rom) (v : Byte) : exec (.romWrD off v) s = .next (s.setDevByte s.target off.toNat v) :=
  hs.atByte hd ho (row := fun e => e.kind == .rom) (beq_iff_eq.mpr hk) fun j _ u => u.setDevByte j off.toNat v

/-! ## Normal accesses (41_device.md R202, R207) -/

/-- A ROM device's normal write row leaves the state as it is (41_device.md R207). -/
theorem exec_romWr (hs : s.BusOpen) (hd : s.devs[s.target]? = some d) (ho : off.toNat < d.range.size)
    (hk : d.kind = .rom) (v : Byte) : exec (.romWr off v) s = .next s :=
  hs.atByte hd ho (row := fun e => e.kind == .rom) (beq_iff_eq.mpr hk) fun _ _ u => u

/-- A byte with no read handler answers its backing byte, but for an OTHER device (41_device.md R202, R207). -/
theorem exec_devRd_backing (hs : s.BusOpen) (hd : s.devs[s.target]? = some d) (ho : off.toNat < d.range.size)
    (h : hasReadHandler d.kind off.toNat = false) (hk : d.kind ≠ .other) :
    exec (.devRd off) s = .next (Answered s (.byte (s.devByte s.target off.toNat))) := by
  rw [exec_devRd_of_no_handler hs hd ho h, portRead, devRead_of_no_handler h, if_neg hk]
  rfl

end rows

theorem PlainByte.writable {k : DeviceKind} {off : Nat} (h : PlainByte k off) : k ≠ .rom ∧ k ≠ .other := by
  rcases h with rfl | rfl | ⟨rfl, -⟩ | ⟨rfl, -⟩ <;> decide

/-! ## The obligations -/

/-- Settles O15: a debug row has no condition but the offset, and its act is the backing byte's alone. -/
theorem debugAccess : Obligations.DebugAccess := by
  intro s off v d hs hinv hd ho
  have hstores := State.setDevByte_storesByte hd (hinv.sound hd).1 off.toNat v
  exact ⟨exec_devRdD hs hd ho, ⟨_, exec_devWrD hs hd ho v, hstores⟩,
    fun hk => ⟨_, exec_romWrD hs hd ho hk v, hstores⟩⟩

/-- Settles O16: a plain byte has no handler and its device is neither ROM nor OTHER, so both rows act on the backing
byte. -/
theorem plainBytes : Obligations.PlainBytes := by
  intro s off v d hs hinv hd ho hbyte
  have hplain : PlainByte d.kind off.toNat := hbyte
  obtain ⟨hnoread, hnowrite⟩ := hplain.no_handler
  obtain ⟨hrom, hother⟩ := hplain.writable
  have hwrite : exec (.devWr off v) s = .next (s.setDevByte s.target off.toNat v) :=
    (exec_devWr_of_no_handler hs hd ho hrom hnowrite v).trans (congrArg _ (hplain.devWrite_eq s.target v s))
  exact ⟨exec_devRd_backing hs hd ho hnoread hother,
    _, hwrite, State.setDevByte_storesByte hd (hinv.sound hd).1 off.toNat v⟩

/-- Settles O17: neither kind has a handler; a ROM's write row acts as the identity, and an OTHER device's generic rows
draw a byte and write nothing. -/
theorem romAndOtherDevices : Obligations.RomAndOtherDevices := by
  intro s off v d hs hd ho
  refine ⟨fun hk => ⟨exec_romWr hs hd ho hk v, ?_⟩, fun hk => ⟨?_, ?_⟩⟩
  · exact exec_devRd_backing hs hd ho (by rw [hk]; rfl) (by rw [hk]; decide)
  · rw [exec_devWr_of_no_handler hs hd ho (by rw [hk]; decide) (by rw [hk]; rfl) v, hk]
    rfl
  · rw [exec_devRd_of_no_handler hs hd ho (by rw [hk]; rfl), hk]
    rfl

end Sys2Proof.Machine
end

section
/-! PROOFS. The registers of the GPU at its port: backing bytes, the palette and glyph windows, and the writes that run
the decode pass or its window (42_gpu_registers.md R231 to R249; 43_gpu_decode.md R284, R287 to R289). -/

namespace Sys2Proof.Machine

/-! ## Registers without a handler (41_device.md R202; 42_gpu_registers.md R232 to R247) -/

section registers

variable {s : State} {i : Instr} {off : Nat}

/-- A register row whose byte has no read handler answers the backing byte. -/
theorem State.PortOpen.exec_readRow (hs : s.PortOpen .gpu) (hrow : gpuReadRow off = some i)
    (hplain : hasReadHandler .gpu off = false) :
    exec i s = .next (Answered s (.byte (s.devByte s.target off))) := by
  rw [exec_of_gpuReadRow hrow, hs.atDevice, portRead, devRead_of_no_handler hplain]
  rfl

/-- A register row whose byte has no write handler stores the byte. -/
theorem State.PortOpen.exec_writeRow (hs : s.PortOpen .gpu) {v : Byte} (hrow : gpuWriteRow off v = some i)
    (hplain : hasWriteHandler .gpu off = false) : exec i s = .next (s.setDevByte s.target off v) := by
  rw [exec_of_gpuWriteRow hrow, hs.atDevice, gpuWrite_of_no_handler hplain]

end registers

theorem State.PortOpen.canonical {s : State} {k : DeviceKind} (hs : s.PortOpen k) (hinv : s.Inv) :
    s.Canonical s.target := by
  obtain ⟨-, d, hd, -⟩ := hs
  exact hinv.canonical hd

theorem State.Canonical.storesByte {s : State} {i : Nat} (h : s.Canonical i) (off : Nat) (v : Byte) :
    StoresByte s (s.setDevByte i off v) i off v := by
  obtain ⟨d, hd, hw⟩ := h
  exact State.setDevByte_storesByte hd hw off v

/-- Settles O19: each of the registers is the read row of its offset, which has no read handler. -/
theorem registerReads : Obligations.RegisterReads := by
  intro s i off hs hmem
  have hrow : gpuReadRow off = some i ∧ hasReadHandler .gpu off = false := by
    simp only [List.mem_cons, Prod.mk.injEq, List.not_mem_nil, or_false] at hmem
    rcases hmem with h | h | h | h | h | h | h | h | h | h | h | h | h | h | h | h <;>
      obtain ⟨rfl, rfl⟩ := h <;> exact ⟨rfl, rfl⟩
  exact hs.exec_readRow hrow.1 hrow.2

/-- Settles O20: each of the storing registers is the write row of its offset, which has no write handler; the
read-only ones are rows that act as the identity. -/
theorem registerWrites : Obligations.RegisterWrites := by
  intro s v hs hinv
  refine ⟨fun i off hmem => ?_, hs.atDevice fun _ t => t, hs.atDevice fun _ t => t, hs.atDevice fun _ t => t⟩
  have hrow : gpuWriteRow off v = some i ∧ hasWriteHandler .gpu off = false := by
    simp only [List.mem_cons, Prod.mk.injEq, List.not_mem_nil, or_false] at hmem
    rcases hmem with h | h | h | h | h | h | h <;> obtain ⟨rfl, rfl⟩ := h <;> exact ⟨rfl, rfl⟩
  exact ⟨_, hs.exec_writeRow hrow.1 hrow.2, (hs.canonical hinv).storesByte off v⟩

/-! ## The windows on the palettes and the glyphs (42_gpu_registers.md R239 to R249) -/

/-- Replacing an entry by a function of itself applies the function there and nowhere else. -/
theorem entry_setEntry_apply {α : Type} (t : Vector α 256) (i j : Byte) (f : α → α) :
    entry (setEntry t i (f (entry t i))) j = if j = i then f (entry t j) else entry t j := by
  rw [entry_setEntry]
  split_ifs with h
  · rw [h]
  · rfl

/-- Settles O24: each write applies to the selected entry the replacement of one half. -/
theorem paletteRegisters : Obligations.PaletteRegisters := by
  intro s v hs ip ie e x
  have replacesMsb (t : Vector Word 256) (i j : Byte) := entry_setEntry_apply t i j fun c => be16 v (lo8 c)
  have replacesLsb (t : Vector Word 256) (i j : Byte) := entry_setEntry_apply t i j fun c => be16 (hi8 c) v
  exact ⟨hs.atDevice fun i t => t.respond (.byte (hi8 (t.palEntry i))),
    hs.atDevice fun i t => t.respond (.byte (lo8 (t.palEntry i))),
    hs.atDevice fun i t => t.respond (.byte (hi8 (t.epalEntry i))),
    hs.atDevice fun i t => t.respond (.byte (lo8 (t.epalEntry i))),
    ⟨_, hs.atDevice fun i t => writePalMsb i v t, replacesMsb s.gpu.palette ip, rfl⟩,
    ⟨_, hs.atDevice fun i t => writePalLsb i v t, replacesLsb s.gpu.palette ip, rfl⟩,
    ⟨_, hs.atDevice fun i t => writeEpalMsb i v t, replacesMsb s.gpu.epalette ie, rfl⟩,
    ⟨_, hs.atDevice fun i t => writeEpalLsb i v t, replacesLsb s.gpu.epalette ie, rfl⟩⟩

/-- The rows of the glyph row registers are those of the selected glyph. -/
theorem exec_glyphRow {s : State} {v : Byte} {r : Fin 8} {rd wr : Instr}
    (hmem : (r, rd, wr) ∈ [((0 : Fin 8), Instr.rdGpuGlyphRow0, Instr.wrGpuGlyphRow0 v),
      (1, .rdGpuGlyphRow1, .wrGpuGlyphRow1 v), (2, .rdGpuGlyphRow2, .wrGpuGlyphRow2 v),
      (3, .rdGpuGlyphRow3, .wrGpuGlyphRow3 v), (4, .rdGpuGlyphRow4, .wrGpuGlyphRow4 v),
      (5, .rdGpuGlyphRow5, .wrGpuGlyphRow5 v), (6, .rdGpuGlyphRow6, .wrGpuGlyphRow6 v),
      (7, .rdGpuGlyphRow7, .wrGpuGlyphRow7 v)]) :
    exec rd s = s.atDevice .gpu (fun i t => t.respond (.byte (t.glyphRow i r))) ∧
      exec wr s = s.atDevice .gpu (fun i t => t.setGlyphRow i r v) := by
  simp only [List.mem_cons, Prod.mk.injEq, List.not_mem_nil, or_false] at hmem
  rcases hmem with h | h | h | h | h | h | h | h <;> obtain ⟨rfl, rfl, rfl⟩ := h <;> exact ⟨rfl, rfl⟩

/-- A row of any glyph after a row of the selected one is replaced. -/
theorem State.setGlyphRow_row (s : State) (i : Nat) (r : Fin 8) (v h : Byte) (q : Fin 8) :
    (entry (s.setGlyphRow i r v).gpu.glyph h)[q] =
      if h = s.devByte i regGlyphIndex ∧ q = r then v else (entry s.gpu.glyph h)[q] := by
  have hset := entry_setEntry_apply s.gpu.glyph (s.devByte i regGlyphIndex) h fun g => g.set r v
  rw [State.setGlyphRow_gpu, hset]
  by_cases hg : h = s.devByte i regGlyphIndex
  · simp [hg, Fin.getElem_fin, Vector.getElem_set, Fin.val_inj, @eq_comm _ r q]
  · rw [if_neg hg, if_neg fun hgq => hg hgq.1]

/-- Settles O26: each pair of registers is one row of the selected glyph. -/
theorem glyphRows : Obligations.GlyphRows := by
  intro s v r rd wr hs hmem g
  obtain ⟨hrd, hwr⟩ := exec_glyphRow (s := s) hmem
  exact ⟨hrd.trans (hs.atDevice _), _, hwr.trans (hs.atDevice _), s.setGlyphRow_row s.target r v, rfl⟩

/-! ## GPU_OPTIONS (42_gpu_registers.md R235; 43_gpu_decode.md R284) -/

/-- What a row and a byte of GPU_OPTIONS give the computation of the window (43_gpu_decode.md R284). -/
def windowArgs (row : DmtRow) (opt : Byte) : WindowArgs :=
  { timingIndex := row.timingIndex
    pixelWidth := row.pixelWidth
    pixelHeight := row.pixelHeight
    resWidth := row.resWidth
    resHeight := row.resHeight
    aspect := optionAspect opt
    pixmul := optionPixmul opt
    vsync := optionVsync opt
    fullscreen := optionFullscreen opt }

theorem windowOf_eq (row : DmtRow) (opt : Byte) : windowOf row opt = Config.windowSize (windowArgs row opt) := rfl

theorem writeOptions_gpu (i : Nat) (v : Byte) (s : State) :
    (writeOptions i v s).gpu =
      { s.gpu with dec := { s.gpu.dec with
          window := Config.windowSize (windowArgs (entry s.cfg.dmt s.gpu.dec.row) v) } } := by
  rw [← windowOf_eq]
  rfl

/-- Settles O23: the backing bytes change by the store alone, and the window is that of the row in use. -/
theorem optionsWrite : Obligations.OptionsWrite := by
  intro s v hs hinv
  obtain ⟨hbyte, -, hdevices, hbytes⟩ := (hs.canonical hinv).storesByte regOptions v
  exact ⟨_, hs.atDevice fun i t => writeOptions i v t, rfl, ⟨rfl, hdevices⟩, hbyte, hbytes,
    entry s.cfg.dmt s.gpu.dec.row, windowArgs (entry s.cfg.dmt s.gpu.dec.row) v,
    rfl, rfl, rfl, rfl, rfl, rfl, rfl, rfl, rfl, rfl, writeOptions_gpu s.target v s⟩

/-! ## VIDEO_BASE (00_scope.md R7) -/

theorem State.OneVideoRam.videoBase {s : State} {e : Device} (h : s.OneVideoRam e) : s.videoBase = e.range.base := by
  have hfirst : s.videoRam = some e := by rw [State.videoRam, ← List.head?_filter, h, List.head?_cons]
  simp only [State.videoBase, hfirst]

/-- `VIDEO_BASE` is read off the kinds and the ranges of the devices alone. -/
theorem State.videoBase_eq (s : State) :
    s.videoBase =
      ((s.devs.map fun d => (d.kind, d.range)).find? fun p => p.1 == .videoRam).elim 0 fun p => p.2.base := by
  rw [List.find?_map, State.videoBase, State.videoRam, Function.comp_def]
  cases s.devs.find? fun d => d.kind == .videoRam <;> rfl

theorem SameDevices.videoBase {s t : State} (h : SameDevices s t) : t.videoBase = s.videoBase := by
  rw [State.videoBase_eq, State.videoBase_eq, h]

/-! ## The decode pass on the state (43_gpu_decode.md R287 to R289) -/

section pass

variable {s : State} {i : Nat}

/-- The backing bytes after both registers revert. -/
theorem State.Canonical.devByte_revertMode (h : s.Canonical i) (j off : Nat) :
    (s.revertMode i).devByte j off =
      if j = i ∧ off = 0x01 then s.gpu.accRes
      else if j = i ∧ off = 0x00 then s.gpu.accMode else s.devByte j off := by
  rw [State.revertMode, State.devByte_setDevByte (h.setDevByte _ _), State.devByte_setDevByte h]

/-- The backing bytes after a pass is committed. -/
theorem State.Canonical.devByte_commitPass (h : s.Canonical i) (r : Applied) (j off : Nat) :
    (s.commitPass i r).devByte j off =
      if j = i ∧ off = 0x04 then lo8 r.top else if j = i ∧ off = 0x03 then hi8 r.top
      else if j = i ∧ off = 0x01 then r.res else if j = i ∧ off = 0x00 then r.mode else s.devByte j off := by
  have hmode := h.setDevByte regMode r.mode
  have hres := hmode.setDevByte regRes r.res
  have hmsb := hres.setDevByte regVidtop (hi8 r.top)
  rw [← State.devByte_setDevByte h, ← State.devByte_setDevByte hmode, ← State.devByte_setDevByte hres,
    ← State.devByte_setDevByte hmsb]
  rfl

theorem State.Canonical.commitPass_outcome (h : s.Canonical i) (r : Applied) :
    PassOutcome s (s.commitPass i r) i (.accept r) := by
  refine ⟨?_, ?_, ?_, ?_, rfl, fun j off hne => ?_⟩ <;> rw [h.devByte_commitPass]
  · simp
  · simp
  · simp
  · simp
  · grind

theorem State.Canonical.revertMode_outcome (h : s.Canonical i) : PassOutcome s (s.revertMode i) i .reject := by
  refine ⟨?_, ?_, rfl, fun j off hne => ?_⟩ <;> rw [h.devByte_revertMode]
  · simp
  · simp
  · grind

theorem State.Canonical.overrun_outcome (h : s.Canonical i) :
    PassOutcome s ((s.setError i .bufferOverrun).revertMode i) i .overrun := by
  have herr : (s.setError i .bufferOverrun).Canonical i := h.setDevByte _ _
  have hread (j off : Nat) : (s.setError i .bufferOverrun).devByte j off =
      if j = i ∧ off = 0x1C then 11 else s.devByte j off := State.devByte_setDevByte h _ _ _ _
  refine ⟨?_, ?_, ?_, rfl, fun j off hne => ?_⟩ <;> rw [herr.devByte_revertMode]
  · simp [hread]
  · simp
  · simp
  · rw [hread]
    grind

/-- A pass leaves what its verdict says. -/
theorem State.Canonical.runPass_outcome (h : s.Canonical i) (m r : Byte) :
    PassOutcome s (s.runPass i m r) i (decodePass s.cfg s.videoBase (s.devByte i regOptions) m r) := by
  rw [State.runPass]
  cases decodePass s.cfg s.videoBase (s.devByte i regOptions) m r with
  | accept a => exact h.commitPass_outcome a
  | reject => exact h.revertMode_outcome
  | overrun => exact h.overrun_outcome

theorem State.runPass_ownFields (s : State) (i : Nat) (m r : Byte) :
    (s.runPass i m r).envDirty = s.envDirty ∧ (s.runPass i m r).draws = s.draws ∧
      (s.runPass i m r).resp = s.resp := by
  unfold State.runPass
  split <;> exact ⟨rfl, rfl, rfl⟩

end pass

theorem Reaches.outsideKept {i : Nat} {s t : State} (h : Reaches i s t) (hdraws : t.draws = s.draws)
    (hresp : t.resp = s.resp) : OutsideKept s t := by
  have hrest := h.rest
  rw [← hdraws, ← hresp] at hrest
  exact ⟨hrest, h.devices⟩

/-- What a pass leaves does not depend on the bytes of GPU_MODE and GPU_RES before it. -/
theorem PassOutcome.of_before {s u t : State} {i : Nat} {p : PassResult} (h : PassOutcome u t i p)
    (hgpu : u.gpu = s.gpu) (hbytes : BytesKept s u fun j off => j = i ∧ (off = 0x00 ∨ off = 0x01)) :
    PassOutcome s t i p := by
  cases p with
  | accept r =>
    obtain ⟨hmode, hres, hmsb, hlsb, hg, hk⟩ := h
    exact ⟨hmode, hres, hmsb, hlsb, hgpu ▸ hg, (hbytes.mono (by grind)).trans hk⟩
  | reject =>
    obtain ⟨hmode, hres, hg, hk⟩ := h
    exact ⟨hgpu ▸ hmode, hgpu ▸ hres, hg.trans hgpu, hbytes.trans hk⟩
  | overrun =>
    obtain ⟨herr, hmode, hres, hg, hk⟩ := h
    exact ⟨herr, hgpu ▸ hmode, hgpu ▸ hres, hg.trans hgpu, (hbytes.mono (by grind)).trans hk⟩

/-- A write of either register and its pass, on a requested mode and row. -/
def State.storeAndPass (s : State) (i reg : Nat) (v m r : Byte) : State :=
  (s.setDevByte i reg v).markDirty.runPass i m r

theorem writeMode_eq (i : Nat) (v : Byte) (s : State) :
    writeMode i v s = s.storeAndPass i regMode v v (s.devByte i regRes) := by
  rw [← State.devByte_setDevByte_ne s (i := i) (off := regMode) (j := i) (o := regRes) v (by simp)]
  rfl

theorem writeRes_eq (i : Nat) (v : Byte) (s : State) :
    writeRes i v s = s.storeAndPass i regRes v (s.devByte i regMode) v := by
  rw [← State.devByte_setDevByte_ne s (i := i) (off := regRes) (j := i) (o := regMode) v (by simp)]
  rfl

/-- The store before the pass changes none of its inputs, so it leaves what the pass on the state before does. -/
theorem State.Canonical.storeAndPass_outcome {s : State} {i : Nat} (h : s.Canonical i) {reg : Nat}
    (hreg : reg = 0x00 ∨ reg = 0x01) (v m r : Byte) :
    (s.storeAndPass i reg v m r).envDirty = true ∧ OutsideKept s (s.storeAndPass i reg v m r) ∧
      PassOutcome s (s.storeAndPass i reg v m r) i (decodePass s.cfg s.videoBase (s.devByte i regOptions) m r) := by
  have hstored : (s.setDevByte i reg v).markDirty.Canonical i := h.setDevByte reg v
  have hbase : (s.setDevByte i reg v).markDirty.videoBase = s.videoBase :=
    (s.setDevByte_sameDevices i reg v).videoBase
  have hother : regOptions ≠ reg := by rcases hreg with rfl | rfl <;> decide
  have hopt : (s.setDevByte i reg v).markDirty.devByte i regOptions = s.devByte i regOptions :=
    State.devByte_setDevByte_ne s v fun h => hother h.2
  have hbytes : BytesKept s (s.setDevByte i reg v).markDirty fun j off => j = i ∧ (off = 0x00 ∨ off = 0x01) :=
    (s.setDevByte_bytesKept i reg v).mono fun _ _ ⟨hj, hoff⟩ => ⟨hj, hoff ▸ hreg⟩
  have hpass := (hstored.runPass_outcome m r).of_before (s := s) rfl hbytes
  rw [hbase, hopt] at hpass
  have hreaches := ((s.setDevByte_reaches i reg v).trans (State.markDirty_reaches _ i)).trans
    (State.runPass_reaches _ i m r)
  obtain ⟨hdirty, hdraws, hresp⟩ := (s.setDevByte i reg v).markDirty.runPass_ownFields i m r
  exact ⟨hdirty, hreaches.outsideKept hdraws hresp, hpass⟩

/-- Settles O22: either write is its store and one pass, whose inputs are those of the state before. -/
theorem modeAndResolutionWrites : Obligations.ModeAndResolutionWrites := by
  intro s v hs hinv
  have hcanon := hs.canonical hinv
  have hmode : exec (.wrGpuMode v) s = .next (writeMode s.target v s) := hs.atDevice fun i t => writeMode i v t
  have hres : exec (.wrGpuRes v) s = .next (writeRes s.target v s) := hs.atDevice fun i t => writeRes i v t
  rw [writeMode_eq] at hmode
  rw [writeRes_eq] at hres
  exact ⟨fun e he => he.videoBase, ⟨_, hmode, hcanon.storeAndPass_outcome (.inl rfl) v _ _⟩,
    ⟨_, hres, hcanon.storeAndPass_outcome (.inr rfl) v _ _⟩⟩

end Sys2Proof.Machine
end

section
/-! PROOFS. The decode pass as a function of its inputs: when it rejects, when it overruns, what it applies, and that
the applied mode is a fixpoint (43_gpu_decode.md R281 to R291). -/

namespace Sys2Proof.Machine

/-! ## The mode byte and the depth codes (10_state.md R58, R59) -/

/-- Packing some fields and reading them off the byte gives them back. -/
theorem modeFields_modeByte (f : ModeFields) : modeFields (modeByte f) = f := by
  obtain ⟨extEn, extDepth, stdEn, stdBitmap, stdDepth⟩ := f
  revert extEn extDepth stdEn stdBitmap stdDepth
  decide

/-- The reserved bit of a packed mode byte is clear. -/
theorem modeByte_reserved (f : ModeFields) : (modeByte f).getLsbD 4 = false := by
  simp only [modeByte, BitVec.getLsbD_append]
  simp

theorem legalBpp_two_pow {k : Nat} (hk : k < 4) : LegalBpp (2 ^ k) := by
  interval_cases k <;> simp [LegalBpp]

theorem depthBpp_depthCode {b : Nat} (h : LegalBpp b) : depthBpp (depthCode b) = b := by
  rcases h with rfl | rfl | rfl | rfl <;> rfl

/-! ## Fitting a bitmap plane (43_gpu_decode.md R283) -/

theorem fitFuel_zero (n area8 cap : Nat) : fitFuel n 0 area8 cap = 0 := by
  cases n <;> simp [fitFuel]

/-- A depth that fits is kept. -/
theorem fitFuel_of_fits (n : Nat) {b area8 cap : Nat} (h : area8 * b ≤ cap) : fitFuel n b area8 cap = b := by
  cases n with
  | zero => rfl
  | succ n => exact if_neg fun hlt => Nat.not_lt.mpr h hlt.2

/-- A depth that does not fit is halved. -/
theorem fitFuel_of_exceeds (n : Nat) {b area8 cap : Nat} (hb : 0 < b) (h : cap < area8 * b) :
    fitFuel (n + 1) b area8 cap = fitFuel n (b / 2) area8 cap := if_pos ⟨hb, h⟩

/-- Halving ends at 0 where one bit per pixel does not fit, and else at the greatest depth that fits. -/
theorem fitFuel_two_pow {c n : Nat} (hc : c < n) (area8 cap : Nat) :
    (cap < area8 ∧ fitFuel n (2 ^ c) area8 cap = 0) ∨
      ∃ k ≤ c, fitFuel n (2 ^ c) area8 cap = 2 ^ k ∧ area8 * 2 ^ k ≤ cap ∧ (k = c ∨ cap < area8 * (2 * 2 ^ k)) := by
  induction n generalizing c with
  | zero => exact absurd hc (Nat.not_lt_zero c)
  | succ n ih =>
    by_cases hfits : area8 * 2 ^ c ≤ cap
    · exact .inr ⟨c, le_rfl, fitFuel_of_fits _ hfits, hfits, .inl rfl⟩
    · have hexceeds := Nat.not_le.mp hfits
      rw [fitFuel_of_exceeds n (Nat.two_pow_pos c) hexceeds]
      cases c with
      | zero => exact .inl ⟨by simpa using hexceeds, fitFuel_zero n area8 cap⟩
      | succ c =>
        rw [Nat.pow_succ'] at hexceeds
        rw [Nat.pow_succ, Nat.mul_div_cancel _ Nat.two_pos]
        refine (ih (Nat.lt_of_succ_lt_succ hc)).imp_right ?_
        rintro ⟨k, hk, hfit, hle, hmax⟩
        refine ⟨k, Nat.le_succ_of_le hk, hfit, hle, .inr ?_⟩
        rcases hmax with rfl | hmax
        · exact hexceeds
        · exact hmax

/-- The bytes of a bitmap of one bit per pixel. -/
def bitPlaneBytes (row : DmtRow) : Nat := row.resWidth * row.resHeight / 8

/-- The bits per pixel of an enabled bitmap plane, or none on an overrun: step 3 for either plane (R283). -/
def bitmapBpp (depth : BitVec 2) (row : DmtRow) (cap : Nat) : Option Nat :=
  let b := fit (depthBpp depth) row.resWidth row.resHeight cap
  if b = 0 then none else some b

theorem bitmapBpp_cases (depth : BitVec 2) (row : DmtRow) (cap : Nat) :
    (cap < bitPlaneBytes row ∧ bitmapBpp depth row cap = none) ∨
      ∃ k ≤ depth.toNat, bitmapBpp depth row cap = some (2 ^ k) ∧ bitPlaneBytes row * 2 ^ k ≤ cap ∧
        (k = depth.toNat ∨ cap < bitPlaneBytes row * (2 * 2 ^ k)) := by
  have hfit : fit (depthBpp depth) row.resWidth row.resHeight cap =
      fitFuel 4 (2 ^ depth.toNat) (bitPlaneBytes row) cap := rfl
  rw [bitmapBpp, hfit]
  rcases fitFuel_two_pow depth.isLt (bitPlaneBytes row) cap with ⟨hlt, hzero⟩ | ⟨k, hk, hpow, hle, hmax⟩
  · exact .inl ⟨hlt, if_pos hzero⟩
  · refine .inr ⟨k, hk, ?_, hle, hmax⟩
    rw [hpow]
    exact if_neg (Nat.two_pow_pos k).ne'

/-- A bitmap plane overruns where it does not fit at one bit per pixel. -/
theorem bitmapBpp_eq_none_iff {depth : BitVec 2} {row : DmtRow} {cap : Nat} :
    bitmapBpp depth row cap = none ↔ cap < bitPlaneBytes row := by
  rcases bitmapBpp_cases depth row cap with ⟨hlt, hnone⟩ | ⟨k, -, hsome, hle, -⟩
  · exact iff_of_true hnone hlt
  · have : bitPlaneBytes row ≤ bitPlaneBytes row * 2 ^ k := Nat.le_mul_of_pos_right _ (Nat.two_pow_pos k)
    exact iff_of_false (by simp [hsome]) (by omega)

/-- The depth of an enabled bitmap plane is one a plane can have, and the requested one halved until it fits. -/
theorem bitmapBpp_eq_some {depth : BitVec 2} {row : DmtRow} {cap b : Nat} (h : bitmapBpp depth row cap = some b) :
    LegalBpp b ∧ HalvedToFit (depthBpp depth) (bitPlaneBytes row) cap b := by
  rcases bitmapBpp_cases depth row cap with ⟨-, hnone⟩ | ⟨k, hk, hsome, hle, hmax⟩
  · exact absurd (hnone.symm.trans h) nofun
  · obtain rfl : 2 ^ k = b := Option.some.inj (hsome.symm.trans h)
    have hhalved : 2 ^ k = depthBpp depth / 2 ^ (depth.toNat - k) := by
      rw [depthBpp, Nat.pow_div (Nat.sub_le _ _) Nat.two_pos, Nat.sub_sub_self hk]
    exact ⟨legalBpp_two_pow (hk.trans_lt depth.isLt), ⟨_, hhalved⟩, hle, hmax.imp_left (congrArg (2 ^ ·))⟩

/-- Fitting the depth that a plane was given changes nothing. -/
theorem bitmapBpp_depthCode {depth : BitVec 2} {row : DmtRow} {cap b : Nat} (h : bitmapBpp depth row cap = some b) :
    bitmapBpp (depthCode b) row cap = some b := by
  obtain ⟨hlegal, -, hfits, -⟩ := bitmapBpp_eq_some h
  have hpos : b ≠ 0 := by rcases hlegal with rfl | rfl | rfl | rfl <;> decide
  have hfit : fit (depthBpp (depthCode b)) row.resWidth row.resHeight cap = b := by
    rw [depthBpp_depthCode hlegal]
    exact fitFuel_of_fits 4 hfits
  rw [bitmapBpp, hfit]
  exact if_neg hpos

/-! ## The planes of step 3, case by case (43_gpu_decode.md R283, R291) -/

section planes

variable {p : Params} {row : DmtRow} {f : ModeFields}

theorem stdPlaneBpp_bitmap (hen : f.stdEn = true) (hb : f.stdBitmap = true) :
    stdPlaneBpp p row f = bitmapBpp f.stdDepth row p.stdCap := by
  rw [stdPlaneBpp, if_pos hen, if_pos hb, bitmapBpp]

theorem stdPlaneBpp_text (hen : f.stdEn = true) (hb : f.stdBitmap = false) :
    stdPlaneBpp p row f =
      if p.stdCap < textBytes row.resWidth row.resHeight then none else some (depthBpp f.stdDepth) := by
  rw [stdPlaneBpp, if_pos hen, if_neg (by simp [hb])]

theorem stdPlaneBpp_off (hen : f.stdEn = false) : stdPlaneBpp p row f = some (depthBpp f.stdDepth) :=
  if_neg (by simp [hen])

theorem extPlaneBpp_on (hen : f.extEn = true) : extPlaneBpp p row f = bitmapBpp f.extDepth row p.extCap := by
  rw [extPlaneBpp, if_pos hen, bitmapBpp]

theorem extPlaneBpp_off (hen : f.extEn = false) : extPlaneBpp p row f = some (depthBpp f.extDepth) :=
  if_neg (by simp [hen])

theorem stdPlaneBpp_eq_none_iff :
    stdPlaneBpp p row f = none ↔
      (f.stdEn = true ∧ f.stdBitmap = true ∧ p.stdCap < bitPlaneBytes row) ∨
        (f.stdEn = true ∧ f.stdBitmap = false ∧ p.stdCap < textBytes row.resWidth row.resHeight) := by
  cases hen : f.stdEn
  case false => simp [stdPlaneBpp_off hen]
  case true =>
    cases hb : f.stdBitmap
    case true => simp [stdPlaneBpp_bitmap hen hb, bitmapBpp_eq_none_iff]
    case false => simp [stdPlaneBpp_text hen hb]

theorem extPlaneBpp_eq_none_iff : extPlaneBpp p row f = none ↔ f.extEn = true ∧ p.extCap < bitPlaneBytes row := by
  cases hen : f.extEn
  case false => simp [extPlaneBpp_off hen]
  case true => simp [extPlaneBpp_on hen, bitmapBpp_eq_none_iff]

/-! ## The applied fields (43_gpu_decode.md R286) -/

/-- The fields of the applied mode, from the planes' bits per pixel. -/
def appliedFields (f : ModeFields) (sb eb : Nat) : ModeFields :=
  { f with
    extDepth := if f.extEn then depthCode eb else f.extDepth
    stdDepth := if f.stdEn && f.stdBitmap then depthCode sb else f.stdDepth }

theorem modeFields_appliedMode (f : ModeFields) (sb eb : Nat) :
    modeFields (appliedMode f sb eb) = appliedFields f sb eb := modeFields_modeByte _

variable {sb eb : Nat}

theorem appliedFields_stdDepth_bitmap (hen : f.stdEn = true) (hb : f.stdBitmap = true) :
    (appliedFields f sb eb).stdDepth = depthCode sb := by simp [appliedFields, hen, hb]

theorem appliedFields_stdDepth_kept (h : (f.stdEn && f.stdBitmap) = false) :
    (appliedFields f sb eb).stdDepth = f.stdDepth := by simp [appliedFields, h]

theorem appliedFields_extDepth_on (hen : f.extEn = true) : (appliedFields f sb eb).extDepth = depthCode eb := by
  simp [appliedFields, hen]

theorem appliedFields_extDepth_off (hen : f.extEn = false) : (appliedFields f sb eb).extDepth = f.extDepth := by
  simp [appliedFields, hen]

/-- An accepted standard plane's bits per pixel are those of the applied depth code, and an enabled plane's text
cells fit. -/
theorem stdPlaneBpp_applied (h : stdPlaneBpp p row f = some sb) :
    depthBpp (appliedFields f sb eb).stdDepth = sb ∧
      (f.stdEn = true → f.stdBitmap = true → HalvedToFit (depthBpp f.stdDepth) (bitPlaneBytes row) p.stdCap sb) ∧
      (f.stdEn = true → f.stdBitmap = false → textBytes row.resWidth row.resHeight ≤ p.stdCap) := by
  cases hen : f.stdEn
  case false =>
    rw [stdPlaneBpp_off hen] at h
    rw [appliedFields_stdDepth_kept (by simp [hen])]
    exact ⟨Option.some.inj h, nofun, nofun⟩
  case true =>
    cases hb : f.stdBitmap
    case true =>
      rw [stdPlaneBpp_bitmap hen hb] at h
      obtain ⟨hlegal, hhalved⟩ := bitmapBpp_eq_some h
      rw [appliedFields_stdDepth_bitmap hen hb]
      exact ⟨depthBpp_depthCode hlegal, fun _ _ => hhalved, nofun⟩
    case false =>
      rw [stdPlaneBpp_text hen hb] at h
      rw [appliedFields_stdDepth_kept (by simp [hb])]
      split_ifs at h with hlt
      exact ⟨Option.some.inj h, nofun, fun _ _ => Nat.not_lt.mp hlt⟩

/-- An accepted extended plane's bits per pixel are those of the applied depth code. -/
theorem extPlaneBpp_applied (h : extPlaneBpp p row f = some eb) :
    depthBpp (appliedFields f sb eb).extDepth = eb ∧
      (f.extEn = true → HalvedToFit (depthBpp f.extDepth) (bitPlaneBytes row) p.extCap eb) := by
  cases hen : f.extEn
  case false =>
    rw [extPlaneBpp_off hen] at h
    rw [appliedFields_extDepth_off hen]
    exact ⟨Option.some.inj h, nofun⟩
  case true =>
    rw [extPlaneBpp_on hen] at h
    obtain ⟨hlegal, hhalved⟩ := bitmapBpp_eq_some h
    rw [appliedFields_extDepth_on hen]
    exact ⟨depthBpp_depthCode hlegal, fun _ => hhalved⟩

/-- The applied fields give the standard plane the same bits per pixel again. -/
theorem stdPlaneBpp_appliedFields (h : stdPlaneBpp p row f = some sb) :
    stdPlaneBpp p row (appliedFields f sb eb) = some sb := by
  obtain ⟨hdepth, -, hcells⟩ := stdPlaneBpp_applied (eb := eb) h
  cases hen : f.stdEn
  case false => exact (stdPlaneBpp_off (f := appliedFields f sb eb) hen).trans (congrArg some hdepth)
  case true =>
    cases hb : f.stdBitmap
    case true =>
      rw [stdPlaneBpp_bitmap (f := appliedFields f sb eb) hen hb, appliedFields_stdDepth_bitmap hen hb]
      exact bitmapBpp_depthCode ((stdPlaneBpp_bitmap hen hb).symm.trans h)
    case false =>
      rw [stdPlaneBpp_text (f := appliedFields f sb eb) hen hb, hdepth, if_neg (Nat.not_lt.mpr (hcells hen hb))]

/-- The applied fields give the extended plane the same bits per pixel again. -/
theorem extPlaneBpp_appliedFields (h : extPlaneBpp p row f = some eb) :
    extPlaneBpp p row (appliedFields f sb eb) = some eb := by
  cases hen : f.extEn
  case false =>
    exact (extPlaneBpp_off (f := appliedFields f sb eb) hen).trans (congrArg some (extPlaneBpp_applied h).1)
  case true =>
    rw [extPlaneBpp_on (f := appliedFields f sb eb) hen, appliedFields_extDepth_on hen]
    exact bitmapBpp_depthCode ((extPlaneBpp_on hen).symm.trans h)

/-- Applying the same depths again gives the same mode byte. -/
theorem appliedMode_appliedFields (f : ModeFields) (sb eb : Nat) :
    appliedMode (appliedFields f sb eb) sb eb = appliedMode f sb eb := by
  have hfields : appliedFields (appliedFields f sb eb) sb eb = appliedFields f sb eb := by
    simp only [appliedFields]
    congr 1 <;> split_ifs <;> rfl
  exact congrArg modeByte hfields

end planes

/-! ## The verdicts of a pass (43_gpu_decode.md R282, R283, R286) -/

section verdicts

variable {p : Params} {base : Nat} {opt mode res : Byte}

theorem rowForbids_iff {row : DmtRow} {f : ModeFields} :
    rowForbids row f = true ↔
      f.stdEn = true ∧ (if f.stdBitmap then row.stdBitmapValid else row.textValid) = false := by
  cases hb : f.stdBitmap <;> simp [rowForbids, hb]

/-- What a pass commits, from the planes' bits per pixel (43_gpu_decode.md R284 to R287). -/
def appliedResults (p : Params) (base : Nat) (opt mode res : Byte) (sb eb : Nat) : Applied :=
  let row := entry p.dmt res
  let f := modeFields mode
  { mode := appliedMode f sb eb
    res := res
    top := videoTop base (bufferUsed row f sb)
    dec :=
      { row := res
        width := row.resWidth
        height := row.resHeight
        stdEn := f.stdEn
        stdBitmap := f.stdBitmap
        stdBpp := sb
        extEn := f.extEn
        extBpp := eb
        window := windowOf row opt } }

/-- The pass commits the results of both planes' bits per pixel, or overruns where one plane has none. -/
def planesVerdict (p : Params) (base : Nat) (opt mode res : Byte) : Option Nat → Option Nat → PassResult
  | some sb, some eb => .accept (appliedResults p base opt mode res sb eb)
  | _, _ => .overrun

theorem planesVerdict_eq_overrun_iff {x y : Option Nat} :
    planesVerdict p base opt mode res x y = .overrun ↔ x = none ∨ y = none := by
  cases x <;> cases y <;> simp [planesVerdict]

theorem planesVerdict_eq_accept_iff {x y : Option Nat} {r : Applied} :
    planesVerdict p base opt mode res x y = .accept r ↔
      ∃ sb eb, x = some sb ∧ y = some eb ∧ appliedResults p base opt mode res sb eb = r := by
  cases x <;> cases y <;> simp [planesVerdict]

theorem planesVerdict_ne_reject {x y : Option Nat} : planesVerdict p base opt mode res x y ≠ .reject := by
  cases x <;> cases y <;> nofun

theorem decodePass_eq :
    decodePass p base opt mode res =
      if rowForbids (entry p.dmt res) (modeFields mode) then .reject
      else planesVerdict p base opt mode res (stdPlaneBpp p (entry p.dmt res) (modeFields mode))
        (extPlaneBpp p (entry p.dmt res) (modeFields mode)) := by
  unfold decodePass
  dsimp only
  cases stdPlaneBpp p (entry p.dmt res) (modeFields mode) <;>
    cases extPlaneBpp p (entry p.dmt res) (modeFields mode) <;> rfl

theorem decodePass_eq_reject_iff :
    decodePass p base opt mode res = .reject ↔ rowForbids (entry p.dmt res) (modeFields mode) = true := by
  rw [decodePass_eq]
  split_ifs with h <;> simp [h, planesVerdict_ne_reject]

theorem decodePass_eq_overrun_iff :
    decodePass p base opt mode res = .overrun ↔
      ¬ rowForbids (entry p.dmt res) (modeFields mode) = true ∧
        (stdPlaneBpp p (entry p.dmt res) (modeFields mode) = none ∨
          extPlaneBpp p (entry p.dmt res) (modeFields mode) = none) := by
  rw [decodePass_eq]
  split_ifs with h <;> simp [h, planesVerdict_eq_overrun_iff]

theorem decodePass_eq_accept_iff {r : Applied} :
    decodePass p base opt mode res = .accept r ↔
      ¬ rowForbids (entry p.dmt res) (modeFields mode) = true ∧
        ∃ sb eb, stdPlaneBpp p (entry p.dmt res) (modeFields mode) = some sb ∧
          extPlaneBpp p (entry p.dmt res) (modeFields mode) = some eb ∧
          appliedResults p base opt mode res sb eb = r := by
  rw [decodePass_eq]
  split_ifs with h <;> simp [h, planesVerdict_eq_accept_iff]

/-- Whether a pass accepts does not depend on `VIDEO_BASE` and GPU_OPTIONS. -/
theorem decodePass_accepts_anywhere {r : Applied} (h : decodePass p base opt mode res = .accept r) (base' : Nat)
    (opt' : Byte) : ∃ r', decodePass p base' opt' mode res = .accept r' := by
  obtain ⟨hrow, sb, eb, hstd, hext, -⟩ := decodePass_eq_accept_iff.mp h
  exact ⟨_, decodePass_eq_accept_iff.mpr ⟨hrow, sb, eb, hstd, hext, rfl⟩⟩

end verdicts

/-- Settles O27: step 1 rejects by the row's flags, and a pass that goes on overruns where a plane has no depth. -/
theorem passVerdict : Obligations.PassVerdict := by
  rintro p base opt mode res _ rfl
  refine ⟨decodePass_eq_reject_iff.trans rowForbids_iff, ?_⟩
  rw [decodePass_eq_overrun_iff, rowForbids_iff, stdPlaneBpp_eq_none_iff, extPlaneBpp_eq_none_iff, or_assoc]
  rfl

/-- `VIDEO_BASE + used - 1` as a word (43_gpu_decode.md R285). -/
theorem videoTop_toNat (base used : Nat) :
    ((videoTop base used).toNat : Int) = ((base : Int) + used - 1) % 65536 := by
  rw [videoTop, BitVec.toNat_ofInt]
  exact Int.toNat_of_nonneg (Int.emod_nonneg _ (by decide))

/-- Settles O28, from what the applied fields keep and give each plane. -/
theorem acceptedPass : Obligations.AcceptedPass := by
  rintro p base opt mode res _ row rfl h
  obtain ⟨-, sb, eb, hstd, hext, rfl⟩ := decodePass_eq_accept_iff.mp h
  intro area8 sb' eb'
  have hfields : modeFields (appliedMode (modeFields mode) sb eb) = appliedFields (modeFields mode) sb eb :=
    modeFields_appliedMode _ sb eb
  obtain ⟨hsb, hstdFit, -⟩ := stdPlaneBpp_applied (eb := eb) hstd
  obtain ⟨heb, hextFit⟩ := extPlaneBpp_applied (sb := sb) hext
  rw [← hfields] at hsb heb
  have esb : sb' = sb := hsb
  have eeb : eb' = eb := heb
  refine ⟨rfl, modeByte_reserved _, congrArg ModeFields.extEn hfields, congrArg ModeFields.stdEn hfields,
    congrArg ModeFields.stdBitmap hfields, ?_, ?_, ?_, rfl, rfl, rfl, rfl, rfl, esb.symm, rfl, eeb.symm,
    windowArgs (entry p.dmt res) opt, rfl, rfl, rfl, rfl, rfl, rfl, rfl, rfl, rfl, windowOf_eq _ _⟩
  · rw [eeb]
    split_ifs with hen
    · exact hextFit hen
    · exact (congrArg ModeFields.extDepth hfields).trans (appliedFields_extDepth_off (Bool.not_eq_true _ ▸ hen))
  · rw [esb]
    split_ifs with hen
    · obtain ⟨hen, hb⟩ := Bool.and_eq_true_iff.mp hen
      exact hstdFit hen hb
    · exact (congrArg ModeFields.stdDepth hfields).trans (appliedFields_stdDepth_kept (Bool.not_eq_true _ ▸ hen))
  · rw [esb]
    refine (videoTop_toNat _ _).trans ?_
    rfl

/-- Settles O29: the applied fields keep the enables, and give each plane the same depth again. -/
theorem appliedModeIsFixpoint : Obligations.AppliedModeIsFixpoint := by
  intro p base opt mode res r h
  obtain ⟨hrow, sb, eb, hstd, hext, rfl⟩ := decodePass_eq_accept_iff.mp h
  have hfields : modeFields (appliedResults p base opt mode res sb eb).mode =
      appliedFields (modeFields mode) sb eb := modeFields_appliedMode _ sb eb
  have hresults : appliedResults p base opt (appliedResults p base opt mode res sb eb).mode res sb eb =
      appliedResults p base opt mode res sb eb := by
    rw [appliedResults, hfields, appliedMode_appliedFields]
    rfl
  refine decodePass_eq_accept_iff.mpr ⟨?_, sb, eb, ?_, ?_, hresults⟩
  · exact hfields ▸ hrow
  · exact hfields ▸ stdPlaneBpp_appliedFields hstd
  · exact hfields ▸ extPlaneBpp_appliedFields hext

end Sys2Proof.Machine
end

section
/-! PROOFS. Every step keeps the decoded display legal after Init: only an accepted pass changes it, but for the window
(10_state.md R45, R46; 43_gpu_decode.md R282, R283, R287, R291). -/

namespace Sys2Proof.Machine

/-! ## What keeps the display legal -/

/-- The legality of the display does not depend on the window. -/
theorem State.LegalDisplay.congr {s t : State} (h : s.LegalDisplay) (hcfg : t.cfg = s.cfg)
    (hdec : DecodeKeptButWindow s t) : t.LegalDisplay := by
  obtain ⟨hfields, hmode, hres⟩ := hdec
  obtain ⟨w, hdec⟩ : ∃ w, t.gpu.dec = { s.gpu.dec with window := w } := ⟨t.gpu.dec.window, by rw [← hfields]⟩
  obtain ⟨row, width, height, stdEn, stdBitmap, extEn, reserved, stdDepth, extDepth, bitmap, text, extended⟩ := h
  constructor <;> simp only [hcfg, hdec, hmode, hres] <;> assumption

/-- A row that does not forbid an enabled standard plane allows the mode it is in (43_gpu_decode.md R282). -/
theorem row_allows_of_not_forbids {row : DmtRow} {f : ModeFields} (h : ¬ rowForbids row f = true)
    (hen : f.stdEn = true) :
    (f.stdBitmap = true → row.stdBitmapValid = true) ∧ (f.stdBitmap = false → row.textValid = true) := by
  cases hb : f.stdBitmap <;> simpa [rowForbids_iff, hen, hb] using h

/-- Where a pass accepts, what it commits is legal. -/
theorem State.commitPass_legal {s : State} {base : Nat} {opt m r : Byte} {a : Applied}
    (h : decodePass s.cfg base opt m r = .accept a) (i : Nat) : (s.commitPass i a).LegalDisplay := by
  obtain ⟨hrow, sb, eb, hstd, hext, rfl⟩ := decodePass_eq_accept_iff.mp h
  obtain ⟨hsb, hbitmap, htext⟩ := stdPlaneBpp_applied (eb := eb) hstd
  obtain ⟨heb, hextended⟩ := extPlaneBpp_applied (sb := sb) hext
  have hfields : modeFields (appliedResults s.cfg base opt m r sb eb).mode = appliedFields (modeFields m) sb eb :=
    modeFields_appliedMode _ sb eb
  rw [← hfields] at hsb heb
  exact
    { row := rfl
      width := rfl
      height := rfl
      stdEn := (congrArg ModeFields.stdEn hfields).symm
      stdBitmap := (congrArg ModeFields.stdBitmap hfields).symm
      extEn := (congrArg ModeFields.extEn hfields).symm
      reserved := modeByte_reserved _
      stdDepth := hsb.symm
      extDepth := heb.symm
      bitmap := fun hen hb => ⟨(row_allows_of_not_forbids hrow hen).1 hb, (hbitmap hen hb).2.1⟩
      text := fun hen hb => ⟨(row_allows_of_not_forbids hrow hen).2 hb, htext hen hb⟩
      extended := fun hen => (hextended hen).2.1 }

theorem State.revertMode_decode (s : State) (i : Nat) : DecodeKept s (s.revertMode i) := ⟨rfl, rfl, rfl⟩

/-- A pass on a pair that is accepted leaves a legal display, whatever was there before. -/
theorem State.runPass_legal_of_accepts {s : State} {base : Nat} {opt m r : Byte} {a : Applied}
    (h : decodePass s.cfg base opt m r = .accept a) (i : Nat) : (s.runPass i m r).LegalDisplay := by
  obtain ⟨b, hpass⟩ := decodePass_accepts_anywhere h s.videoBase (s.devByte i regOptions)
  rw [State.runPass, hpass]
  exact State.commitPass_legal hpass i

/-- A pass commits a legal display or leaves the one there is. -/
theorem State.LegalDisplay.runPass {s : State} (h : s.LegalDisplay) (i : Nat) (m r : Byte) :
    (s.runPass i m r).LegalDisplay := by
  unfold State.runPass
  split
  case h_1 a hpass => exact State.commitPass_legal hpass i
  case h_2 => exact h.congr rfl (s.revertMode_decode i).butWindow
  case h_3 => exact h.congr rfl ((s.setError i .bufferOverrun).revertMode_decode i).butWindow

/-- A normal write of a GPU byte keeps the display legal: bytes 0x00 and 0x01 by their pass, the others as they keep
the decoded display state but for the window. -/
theorem State.LegalDisplay.gpuWrite {s : State} (h : s.LegalDisplay) (i off : Nat) (v : Byte) :
    (gpuWrite i off v s).LegalDisplay := by
  match off with
  | 0 =>
    have hstored : (s.setDevByte i regMode v).markDirty.LegalDisplay := h.congr rfl ⟨rfl, rfl, rfl⟩
    exact hstored.runPass i v _
  | 1 =>
    have hstored : (s.setDevByte i regRes v).markDirty.LegalDisplay := h.congr rfl ⟨rfl, rfl, rfl⟩
    exact hstored.runPass i _ v
  | off + 2 => exact h.congr (gpuWrite_reaches i _ v s).cfg (gpuWrite_decode i (by omega) v s).1

theorem State.LegalDisplay.devWrite {s : State} (h : s.LegalDisplay) (k : DeviceKind) (i off : Nat) (v : Byte)
    (dbg : Bool) : (devWrite k i off v dbg s).LegalDisplay := by
  by_cases hk : k ≠ .gpu ∨ dbg = true
  · exact h.congr (devWrite_reaches k i off v dbg s).cfg (devWrite_decode k i off v dbg s hk).butWindow
  · simp only [not_or, not_not, Bool.not_eq_true] at hk
    obtain ⟨rfl, rfl⟩ := hk
    exact h.gpuWrite i off v

theorem State.LegalDisplay.busWrite {s : State} (h : s.LegalDisplay) (a : Word) (v : Byte) (dbg : Bool) :
    (busWrite a v dbg s).LegalDisplay := by
  rcases busWrite_cases a v dbg s with ⟨-, e⟩ | ⟨i, d, -, -, e⟩ <;> rw [e]
  · exact h
  · exact h.devWrite d.kind i _ v dbg

/-- A state with the same parameters and the same GPU state is as legal. -/
theorem State.LegalDisplay.of_gpu_eq {s t : State} (h : s.LegalDisplay) (hcfg : t.cfg = s.cfg) (hgpu : t.gpu = s.gpu) :
    t.LegalDisplay := h.congr hcfg (DecodeKept.of_gpu_eq hgpu).butWindow

/-- Every atomic step keeps the display legal. -/
theorem AtomicStep.run_legal (a : AtomicStep) (k : Byte) {s : State} (h : s.LegalDisplay) :
    (a.run k s).2.LegalDisplay := by
  have hcfg := a.run_cfg k s
  cases a with
  | read a dbg => exact h.congr hcfg (busRead_decode a dbg s).butWindow
  | readHigh a dbg => exact h.congr hcfg (busRead_decode a dbg s).butWindow
  | readLow a dbg => exact h.congr hcfg (busRead_decode a dbg s).butWindow
  | write a v dbg => exact h.busWrite a v dbg
  | callback c d j =>
    obtain ⟨-, -, hgpu, -⟩ := c.run_keeps d j s
    exact h.of_gpu_eq hcfg hgpu
  | close c =>
    obtain ⟨-, -, hgpu, -⟩ := c.run_keeps s
    exact h.of_gpu_eq hcfg hgpu

/-! ## INIT makes it legal (44_gpu_render.md R330) -/

/-- The parameters' reset mode and row are accepted, wherever the video buffer is (00_scope.md R8(d)). -/
def ResetAccepted (p : Params) : Prop :=
  ∃ (base : Nat) (opt : Byte) (r : Applied), decodePass p base opt p.resetMode p.resetRes = .accept r

theorem State.gpuInit_legal {s : State} (h : ResetAccepted s.cfg) (i : Nat) : (s.gpuInit i).LegalDisplay := by
  obtain ⟨base, opt, r, hpass⟩ := h
  have hcfg : (s.clearBytes i initClearedOffsets).cfg = s.cfg := (s.clearBytes_reaches i initClearedOffsets).cfg
  rw [← hcfg] at hpass
  unfold State.gpuInit
  refine State.runPass_legal_of_accepts (base := base) (opt := opt) (a := r) ?_ i
  exact hpass

/-- INIT's fan-out leaves a legal display where it was legal or it comes to a GPU. -/
theorem fanOutFrom_onInit_legal {ks : List DeviceKind} {s : State} (hf : s.fault = none) (hreset : ResetAccepted s.cfg)
    (h : s.LegalDisplay ∨ .gpu ∈ ks) (i : Nat) : (fanOutFrom onInit ks i s).LegalDisplay := by
  induction ks generalizing s i with
  | nil => exact h.resolve_right List.not_mem_nil
  | cons k rest ih =>
    simp only [fanOutFrom, hf]
    have hkeeps := onInit_reaches k i s
    refine ih (hkeeps.fault.trans hf) (by rwa [hkeeps.cfg]) ?_ (i + 1)
    cases k
    case gpu => exact .inl (s.gpuInit_legal hreset i)
    all_goals simpa [onInit] using h

theorem execInit_legal {s t : State} (h : execInit s = .next t) : t.LegalDisplay := by
  obtain ⟨hf, -, h⟩ := State.admit_eq_next.mp h
  split_ifs at h with hconf
  cases h
  obtain ⟨hkinds, -, -, ⟨r, hpass⟩, -⟩ := s.configured_iff.mp hconf
  have hgpu : .gpu ∈ s.devs.map (·.kind) := by
    have hcount := hkinds .gpu List.mem_cons_self
    obtain ⟨d, hd, hk⟩ := List.countP_pos_iff.mp (hcount ▸ Nat.one_pos)
    exact List.mem_map.mpr ⟨d, hd, beq_iff_eq.mp hk⟩
  exact (fanOutFrom_onInit_legal hf ⟨_, _, r, hpass⟩ (.inr hgpu) 0).of_gpu_eq rfl rfl

/-! ## Operations and steps -/

/-- Every operation but INIT keeps the display legal. -/
theorem Effect.legal {i : Instr} {s t : State} (h : Effect i s t) (hi : i ≠ .init) (hs : s.LegalDisplay) :
    t.LegalDisplay := by
  have hcfg := h.cfg
  cases h with
  | run h => exact h.induction hs fun a k u _ hu => a.run_legal k hu
  | read d off dbg => exact hs.congr hcfg (devRead_decode d.kind s.target off dbg s).butWindow
  | write d off v dbg => exact hs.devWrite d.kind s.target off v dbg
  | attach size => exact hs.of_gpu_eq rfl rfl
  | overflow => exact hs.of_gpu_eq rfl rfl
  | init e => exact absurd e hi
  | shutdown => exact hs.of_gpu_eq rfl rfl

/-- In phase CONSTRUCT only ATTACH and INIT run (70_reset_and_hazards.md R447). -/
theorem exec_construct_cases {i : Instr} {s t : State} (h : exec i s = .next t) (hs : s.phase = .construct) :
    (∃ size, i = .attach size) ∨ i = .init := by
  obtain ⟨-, hrow⟩ := (s.admits_iff i).mp (exec_admits h)
  have hconstruct : admission i = .construct := by
    rw [hs] at hrow
    cases ha : admission i <;> simp [ha] at hrow ⊢
  cases i
  case attach size => exact .inl ⟨size, rfl⟩
  case init => exact .inr rfl
  all_goals exact Admission.noConfusion hconstruct

/-- Every operation keeps the display legal after Init. -/
theorem exec_displayInv {i : Instr} {s t : State} (h : exec i s = .next t) (hs : s.DisplayInv) : t.DisplayInv := by
  intro ht
  by_cases hi : i = .init
  · subst hi
    exact execInit_legal h
  · refine (exec_effect h).legal hi (hs fun hc => ht ?_)
    obtain ⟨size, rfl⟩ := (exec_construct_cases h hc).resolve_right hi
    obtain ⟨-, -, e⟩ := State.admit_eq_next.mp h
    split_ifs at e <;> cases e <;> exact hc

/-- The next step of an operation in progress keeps the display legal. -/
theorem State.LegalDisplay.advance {s : State} (h : s.LegalDisplay) (o : Ongoing) : (s.advance o).LegalDisplay :=
  State.advance_induction (fun a k _ hu => a.run_legal k hu) (fun _ _ hu => hu.of_gpu_eq rfl rfl) s o h

/-- Settles O59: an operation in CONSTRUCT is ATTACH or INIT, which leaves a legal display, and everything after
keeps it by `Effect.legal` and `AtomicStep.run_legal`. -/
theorem stepKeepsDisplayLegal : Obligations.StepKeepsDisplayLegal := by
  intro s t hs h
  rcases step_cases h with ⟨r, rest, i, -, -, he⟩ | ⟨r, rest, i, o, -, -, ho, hadm, rfl⟩ | ⟨o, rest, -, hgo, rfl⟩
  · exact exec_displayInv he fun hp => (hs hp).of_gpu_eq rfl rfl
  · obtain ⟨n, gaps, steps, -, hsteps, -⟩ := State.divided_eq_some.mp ho
    have hp : s.phase ≠ .construct := hadm.phase_of_divided hsteps
    have hlegal : (s.latch r rest).LegalDisplay := (hs hp).of_gpu_eq rfl rfl
    exact fun _ => hlegal.advance o
  · have hp : s.phase ≠ .construct := by rcases hgo.phase with e | e <;> simp [e]
    have hlegal : (s.relatch o rest).LegalDisplay := (hs hp).of_gpu_eq rfl rfl
    exact fun _ => hlegal.advance o

end Sys2Proof.Machine
end

section
/-! PROOFS. Colours and pixels: the blend of two colours, where a pixel lies in its byte, and packing as the inverse of
unpacking (44_gpu_render.md R315, R319, R320, R322). -/

namespace Sys2Proof.Machine

/-! ## Colours (10_state.md R64) -/

/-- A four-bit field of a colour. -/
theorem toNat_channel (c : Word) (k : Nat) : (c.extractLsb' k 4).toNat = c.toNat / 2 ^ k % 16 := by
  rw [BitVec.extractLsb'_toNat, Nat.shiftRight_eq_div_pow]

theorem toNat_alpha (c : Word) : (alpha c).toNat = c.toNat / 4096 := by
  have htop : (alpha c).toNat = c.toNat / 2 ^ 12 % 16 := toNat_channel c 12
  omega

theorem toNat_argb (a r g b : BitVec 4) :
    (argb a r g b).toNat = a.toNat * 4096 + r.toNat * 256 + g.toNat * 16 + b.toNat := by
  rw [argb, toNat_append_add, toNat_append_add, toNat_append_add]
  omega

/-- A colour is its four fields. -/
theorem argb_fields (c : Word) : argb (alpha c) (red c) (green c) (blue c) = c := by
  apply BitVec.eq_of_toNat_eq
  rw [toNat_argb, alpha, red, green, blue, toNat_channel, toNat_channel, toNat_channel, toNat_channel]
  omega

/-- Forcing a colour opaque replaces its alpha and keeps the rest (44_gpu_render.md R320). -/
theorem forceOpaque_eq (c : Word) : forceOpaque c = 0xF#4 ++ c.extractLsb' 0 12 := by
  apply BitVec.eq_of_toNat_eq
  have hcolour : (c.extractLsb' 0 12).toNat = c.toNat % 4096 := BitVec.extractLsb'_toNat 0 12 c
  rw [forceOpaque, toNat_argb, red, green, blue, toNat_channel, toNat_channel, toNat_channel, toNat_append_add, hcolour,
    show (0xF : BitVec 4).toNat = 15 from rfl, show (0xF#4).toNat = 15 from rfl]
  omega

/-! ## The blend (44_gpu_render.md R319) -/

/-- The weights `16 - a` and `a + 1` sum to 17, and 15 * 17 = 255: the result fits in four bits. -/
theorem blend_fits {a d s : Nat} (ha : a < 16) (hd : d < 16) (hs : s < 16) :
    (d * (16 - a) + s * (a + 1)) / 16 ≤ 15 := by
  have hsum : d * (16 - a) + s * (a + 1) ≤ 255 := by
    calc d * (16 - a) + s * (a + 1)
        ≤ 15 * (16 - a) + 15 * (a + 1) :=
          Nat.add_le_add (Nat.mul_le_mul_right _ (by omega)) (Nat.mul_le_mul_right _ (by omega))
      _ = 255 := by omega
  omega

theorem toNat_blendChannel (a d s : BitVec 4) :
    (blendChannel a d s).toNat = (d.toNat * (16 - a.toNat) + s.toNat * (a.toNat + 1)) / 16 := by
  have hfits := blend_fits a.isLt d.isLt s.isLt
  rw [blendChannel, BitVec.toNat_ofNat, Nat.shiftRight_eq_div_pow, Nat.mod_eq_of_lt (Nat.lt_succ_of_le hfits)]

theorem blendChannel_opaque (d s : BitVec 4) : blendChannel 15 d s = s := by
  apply BitVec.eq_of_toNat_eq
  rw [toNat_blendChannel, show (15 : BitVec 4).toNat = 15 from rfl]
  omega

theorem blendChannel_transparent (d s : BitVec 4) : blendChannel 0 d s = d := by
  apply BitVec.eq_of_toNat_eq
  rw [toNat_blendChannel, show (0 : BitVec 4).toNat = 0 from rfl]
  omega

theorem blend_opaque {dst src : Word} (h : alpha src = 15) : blend dst src = src := by
  simp only [blend, h, blendChannel_opaque]
  rw [← h, argb_fields]

theorem blend_transparent {dst src : Word} (h : alpha src = 0) : blend dst src = dst := by
  simp only [blend, h, blendChannel_transparent, argb_fields]

/-- Settles O50: each field by `toNat_blendChannel`, the bounds by `blend_fits`, the ends field by field. -/
theorem blendFormula : Obligations.BlendFormula := by
  intro dst src a channel
  have ha : (alpha src).toNat = a := toNat_alpha src
  have fits (k : Nat) : channel k ≤ 15 :=
    blend_fits (ha ▸ (alpha src).isLt) (Nat.mod_lt _ (by decide)) (Nat.mod_lt _ (by decide))
  have blended (k : Nat) :
      (blendChannel (alpha src) (dst.extractLsb' k 4) (src.extractLsb' k 4)).toNat = channel k := by
    rw [toNat_blendChannel, toNat_channel, toNat_channel, ha]
  refine ⟨?_, fits 12, fits 8, fits 4, fits 0, fun h => ?_, fun h => ?_⟩
  · rw [← blended, ← blended, ← blended, ← blended]
    exact toNat_argb _ _ _ _
  · exact blend_opaque (BitVec.eq_of_toNat_eq (ha.trans h))
  · exact blend_transparent (BitVec.eq_of_toNat_eq (ha.trans h))

/-! ## Where a pixel lies (44_gpu_render.md R315) -/

/-- Where `n` pixels fill a byte, pixel `p` is field `p % n` of byte `p / n`, counted from the left. -/
theorem unpack_eq {bpp n : Nat} (h : bpp * n = 8) (fetch : Nat → Byte) (p : Nat) :
    unpack fetch bpp p = (fetch (p / n)).toNat / 2 ^ (8 - bpp - p % n * bpp) % 2 ^ bpp := by
  have hn : 0 < n := Nat.pos_of_ne_zero fun h0 => by simp [h0] at h
  have hb : 0 < bpp := Nat.pos_of_ne_zero fun h0 => by simp [h0] at h
  have hbyte : p * bpp / 8 = p / n := by rw [← h, Nat.mul_comm p, Nat.mul_div_mul_left _ _ hb]
  have hbit : p * bpp % 8 = p % n * bpp := by rw [← h, Nat.mul_comm p, Nat.mul_mod_mul_left, Nat.mul_comm]
  rw [unpack, hbyte, hbit, Nat.shiftRight_eq_div_pow]

/-- Settles O51: `unpack_eq` with 8, 4, 2 and 1 pixels in a byte. -/
theorem pixelFields : Obligations.PixelFields := by
  intro fetch p
  have field (b : Byte) (k m : Nat) : (b.extractLsb' k m).toNat = b.toNat / 2 ^ k % 2 ^ m := by
    rw [BitVec.extractLsb'_toNat, Nat.shiftRight_eq_div_pow]
  refine ⟨?_, ?_, ?_, ?_⟩
  · rw [unpack_eq (n := 8) rfl, BitVec.getLsbD, Nat.toNat_testBit, Nat.mul_one, Nat.pow_one]
  · rw [unpack_eq (n := 4) rfl, field, Nat.mul_comm 2]
  · rw [unpack_eq (n := 2) rfl]
    rcases Nat.mod_two_eq_zero_or_one p with hp | hp <;> simp [hp, field]
  · rw [unpack_eq (n := 1) rfl, Nat.div_one, Nat.mod_one]
    simpa using (fetch p).isLt

/-! ## Packing (44_gpu_render.md R322) -/

/-- The number whose base `2 ^ bpp` digits are the first `n` values of `d`, the first most significant. -/
def packedDigits (bpp : Nat) (d : Nat → Nat) : Nat → Nat
  | 0 => 0
  | n + 1 => packedDigits bpp d n * 2 ^ bpp + d n

/-- The sum that `packByte` takes is that number. -/
theorem sum_eq_packedDigits (bpp : Nat) (d : Nat → Nat) (n : Nat) :
    ((List.range n).map fun j => d j * 2 ^ (bpp * n - bpp - j * bpp)).sum = packedDigits bpp d n := by
  induction n with
  | zero => rfl
  | succ n ih =>
    have shifted : ∀ j ∈ List.range n,
        d j * 2 ^ (bpp * (n + 1) - bpp - j * bpp) = d j * 2 ^ (bpp * n - bpp - j * bpp) * 2 ^ bpp := by
      intro j hj
      have hle : (j + 1) * bpp ≤ n * bpp := Nat.mul_le_mul_right bpp (List.mem_range.mp hj)
      have hexp : bpp * (n + 1) - bpp - j * bpp = bpp * n - bpp - j * bpp + bpp := by
        rw [Nat.mul_comm bpp n, Nat.mul_comm bpp (n + 1)]
        rw [Nat.succ_mul] at hle ⊢
        omega
      rw [hexp, Nat.pow_add, Nat.mul_assoc]
    have hlast : bpp * (n + 1) - bpp - n * bpp = 0 := by rw [Nat.mul_succ, Nat.mul_comm n]; omega
    rw [List.range_succ, List.map_append, List.sum_append, List.map_congr_left shifted, List.sum_map_mul_right, ih]
    simp [packedDigits, hlast]

section digits

variable {bpp : Nat} {d : Nat → Nat} (hd : ∀ j, d j < 2 ^ bpp)
include hd

theorem packedDigits_lt (n : Nat) : packedDigits bpp d n < 2 ^ (bpp * n) := by
  induction n with
  | zero => exact Nat.one_pos
  | succ n ih =>
    have hn := hd n
    calc packedDigits bpp d n * 2 ^ bpp + d n
        < (packedDigits bpp d n + 1) * 2 ^ bpp := by rw [Nat.succ_mul]; omega
      _ ≤ 2 ^ (bpp * n) * 2 ^ bpp := Nat.mul_le_mul_right _ ih
      _ = 2 ^ (bpp * (n + 1)) := (Nat.pow_add 2 (bpp * n) bpp).symm

/-- The digit at place `i`, of the `n` that there are. -/
theorem packedDigits_digit {i n : Nat} (hi : i < n) :
    packedDigits bpp d n / 2 ^ (bpp * n - bpp - i * bpp) % 2 ^ bpp = d i := by
  induction n with
  | zero => exact absurd hi (Nat.not_lt_zero i)
  | succ n ih =>
    have hlow : packedDigits bpp d (n + 1) / 2 ^ bpp = packedDigits bpp d n := by
      rw [packedDigits, Nat.add_comm, Nat.add_mul_div_right _ _ (Nat.two_pow_pos bpp), Nat.div_eq_of_lt (hd n),
        Nat.zero_add]
    rcases Nat.lt_succ_iff_lt_or_eq.mp hi with hlt | rfl
    · have hle : (i + 1) * bpp ≤ n * bpp := Nat.mul_le_mul_right bpp hlt
      have hexp : bpp * (n + 1) - bpp - i * bpp = bpp + (bpp * n - bpp - i * bpp) := by
        rw [Nat.mul_comm bpp n, Nat.mul_comm bpp (n + 1)]
        rw [Nat.succ_mul] at hle ⊢
        omega
      rw [hexp, Nat.pow_add, ← Nat.div_div_eq_div_mul, hlow, ih hlt]
    · have hexp : bpp * (i + 1) - bpp - i * bpp = 0 := by rw [Nat.mul_succ, Nat.mul_comm i]; omega
      rw [hexp, Nat.pow_zero, Nat.div_one, packedDigits, Nat.mul_add_mod_self_right, Nat.mod_eq_of_lt (hd i)]

end digits

theorem toNat_packByte {bpp n : Nat} (h : bpp * n = 8) (idx : Nat → Nat) (k : Nat) :
    (packByte idx bpp k).toNat = packedDigits bpp (fun j => idx (k * n + j) % 2 ^ bpp) n := by
  have hb : 0 < bpp := Nat.pos_of_ne_zero fun h0 => by simp [h0] at h
  have hn : 8 / bpp = n := by rw [← h, Nat.mul_div_cancel_left _ hb]
  have hlt := packedDigits_lt (bpp := bpp) (fun j => Nat.mod_lt (idx (k * n + j)) (Nat.two_pow_pos bpp)) n
  have hsum := sum_eq_packedDigits bpp (fun j => idx (k * n + j) % 2 ^ bpp) n
  rw [h] at hlt hsum
  rw [packByte, hn, hsum, BitVec.toNat_ofNat, Nat.mod_eq_of_lt hlt]

/-- Unpacking gives back every index that fits, where the buffer holds the pixel's byte. -/
theorem unpack_packByte {bpp n : Nat} (h : bpp * n = 8) {idx : Nat → Nat} {fetch : Nat → Byte} {p : Nat}
    (hbyte : fetch (p / n) = packByte idx bpp (p / n)) (hidx : idx p < 2 ^ bpp) : unpack fetch bpp p = idx p := by
  have hn : 0 < n := Nat.pos_of_ne_zero fun h0 => by simp [h0] at h
  have hdigit := packedDigits_digit (bpp := bpp) (d := fun j => idx (p / n * n + j) % 2 ^ bpp)
    (fun _ => Nat.mod_lt _ (Nat.two_pow_pos bpp)) (Nat.mod_lt p hn)
  rw [h] at hdigit
  rw [unpack_eq h, hbyte, toNat_packByte h, hdigit, Nat.div_add_mod', Nat.mod_eq_of_lt hidx]

/-- Settles O52: the bytes of the frame hold its pixels, `8 / bpp` each, and `unpack_packByte` at the pixel's byte. -/
theorem packUnpackRoundTrip : Obligations.PackUnpackRoundTrip := by
  rintro bpp w h p idx buffer hbpp ⟨groups, hgroups⟩ hp hidx rfl
  obtain ⟨n, hn⟩ : ∃ n, bpp * n = 8 := by
    rcases hbpp with rfl | rfl | rfl | rfl
    exacts [⟨8, rfl⟩, ⟨4, rfl⟩, ⟨2, rfl⟩, ⟨1, rfl⟩]
  have hbytes : w * h / 8 * bpp * n = w * h := by rw [Nat.mul_assoc, hn, hgroups]; omega
  have hbyte : p / n < w * h / 8 * bpp := Nat.div_lt_of_lt_mul (by rw [Nat.mul_comm, hbytes]; exact hp)
  refine unpack_packByte hn ?_ (hidx p hp)
  simp [List.getD_eq_getElem?_getD, hbyte]

end Sys2Proof.Machine
end

section
/-! PROOFS. RENDER composes the frame of the decoded resolution (44_gpu_render.md R311 to R320, R335). -/

namespace Sys2Proof.Machine

/-! ## A fan-out in which only the GPU acts (40_bus.md R182; 41_device.md R210) -/

section fanOut

variable {callback : DeviceKind → Nat → State → State} (hcallback : ∀ k i s, k ≠ .gpu → callback k i s = s)
include hcallback

theorem fanOutFrom_of_no_gpu {ks : List DeviceKind} (h : .gpu ∉ ks) (i : Nat) (s : State) :
    fanOutFrom callback ks i s = s := by
  refine fanOutFrom_induction_kinds (p := fun t => t = s) ks i s rfl ?_
  rintro j k _ hk rfl
  exact hcallback k _ _ fun e => h (e ▸ List.mem_of_getElem? hk)

/-- The first GPU's callback is the first to act. -/
theorem fanOutFrom_first_gpu {before : List DeviceKind} (h : .gpu ∉ before) (after : List DeviceKind) (i : Nat)
    {s : State} (hf : s.fault = none) :
    fanOutFrom callback (before ++ .gpu :: after) i s =
      fanOutFrom callback after (i + before.length + 1) (callback .gpu (i + before.length) s) := by
  induction before generalizing i with
  | nil => simp [fanOutFrom, hf]
  | cons k rest ih =>
    obtain ⟨hk, hrest⟩ := not_or.mp (List.mem_cons.not.mp h)
    simp only [List.cons_append, fanOutFrom, hf, hcallback k i s (Ne.symm hk), ih hrest, List.length_cons]
    rw [Nat.add_right_comm i 1, Nat.add_assoc i]

end fanOut

/-! ## The fan-out of RENDER (40_bus.md R179) -/

theorem onRender_of_ne_gpu (k : DeviceKind) (i : Nat) (s : State) (h : k ≠ .gpu) : onRender k i s = s := by
  cases k
  case gpu => exact absurd rfl h
  all_goals rfl

/-- What a GPU composes does not depend on the frame before it, so composing again changes nothing. -/
theorem onRender_composed (k : DeviceKind) (i : Nat) (s : State) :
    onRender k i { s with frame := s.composed } = { s with frame := s.composed } := by
  cases k <;> rfl

theorem State.fanOut_render {s : State} (hf : s.fault = none) (hgpu : ∃ d ∈ s.devs, d.kind = .gpu) :
    s.fanOut onRender = { s with frame := s.composed } := by
  obtain ⟨before, after, hkinds, hbefore⟩ :=
    List.eq_append_cons_of_mem (List.mem_map (f := Device.kind).mpr hgpu)
  rw [State.fanOut, hkinds, fanOutFrom_first_gpu onRender_of_ne_gpu hbefore after 0 hf]
  refine fanOutFrom_induction (p := fun t => t = { s with frame := s.composed }) ?_ after _ _ rfl
  rintro k i _ rfl
  exact onRender_composed k i s

theorem State.LoopOpen.exec_render {s : State} (hs : s.LoopOpen) (hgpu : ∃ d ∈ s.devs, d.kind = .gpu) :
    exec .render s = .next { s with frame := s.composed } := by
  have hrow : exec .render s = execRender s := rfl
  rw [hrow, execRender, hs.whenAdmitted, State.fanOut_render hs.1 hgpu]

/-! ## The bytes of the planes (44_gpu_render.md R314, R316) -/

theorem State.OneVideoRam.videoRam {s : State} {e : Device} (h : s.OneVideoRam e) : s.videoRam = some e := by
  rw [State.videoRam, ← List.head?_filter, h, List.head?_cons]

theorem State.OneVideoRam.stdByte {s : State} {e : Device} (h : s.OneVideoRam e) (k : Nat) :
    s.stdByte k = if k < s.cfg.stdCap then e.backing.read k else 0x00 := by
  rw [State.stdByte, h.videoRam]

/-- An extended plane within secondary memory does not wrap. -/
theorem State.extByte_of_le {s : State} (h : s.cfg.extCap ≤ 65536) (k : Nat) :
    s.extByte k = if k < s.cfg.extCap then s.gpu.ext.read k else 0x00 := by
  rw [State.extByte]
  split_ifs with hk
  · rw [State.extRead, extBase, Nat.zero_add, extMemSize, Nat.mod_eq_of_lt (Nat.lt_of_lt_of_le hk h)]
  · rfl

/-! ## The pixels (44_gpu_render.md R311 to R318) -/

/-- A pixel inside the frame is the one composed there: the frame is row-major. -/
theorem State.composed_pixelAt (s : State) {x y : Nat} (hx : x < s.gpu.dec.width) (hy : y < s.gpu.dec.height) :
    s.composed.pixelAt x y = some (s.pixel x y) := by
  have hw : 0 < s.gpu.dec.width := Nat.zero_lt_of_lt hx
  have hlt : y * s.gpu.dec.width + x < s.gpu.dec.width * s.gpu.dec.height :=
    calc y * s.gpu.dec.width + x
        < (y + 1) * s.gpu.dec.width := by rw [Nat.succ_mul]; omega
      _ ≤ s.gpu.dec.height * s.gpu.dec.width := Nat.mul_le_mul_right _ hy
      _ = s.gpu.dec.width * s.gpu.dec.height := Nat.mul_comm _ _
  have hcol : (y * s.gpu.dec.width + x) % s.gpu.dec.width = x := by
    rw [Nat.mul_add_mod_self_right, Nat.mod_eq_of_lt hx]
  have hrow : (y * s.gpu.dec.width + x) / s.gpu.dec.width = y := by
    rw [Nat.add_comm, Nat.add_mul_div_right _ _ hw, Nat.div_eq_of_lt hx, Nat.zero_add]
  simp only [Frame.pixelAt, State.composed, List.getElem?_map, List.getElem?_range hlt, Option.map_some, hcol, hrow]

theorem State.underPixel_eq (s : State) (x y : Nat) :
    s.underPixel x y =
      if s.gpu.dec.extEn then 0xF#4 ++ (entry s.gpu.epalette (s.extIndex x y)).extractLsb' 0 12 else 0xF000 := by
  rw [State.underPixel, forceOpaque_eq]
  rfl

theorem cellForeground_eq (cell : Byte) : cellForeground cell = BitVec.ofNat 8 (cell.toNat / 16) := by
  have hfield : (cell.extractLsb' 4 4).toNat = cell.toNat / 16 := by
    have := cell.isLt
    rw [BitVec.extractLsb'_toNat, Nat.shiftRight_eq_div_pow]
    omega
  apply BitVec.eq_of_toNat_eq
  rw [cellForeground, toNat_append_add, hfield, BitVec.toNat_ofNat]
  simp
  omega

theorem cellBackground_eq (cell : Byte) : cellBackground cell = BitVec.ofNat 8 (cell.toNat % 16) := by
  have hfield : (cell.extractLsb' 0 4).toNat = cell.toNat % 16 := BitVec.extractLsb'_toNat 0 4 cell
  apply BitVec.eq_of_toNat_eq
  rw [cellBackground, toNat_append_add, hfield, BitVec.toNat_ofNat]
  simp
  omega

/-- The colour index of a text pixel: the nibble of the cell's second byte that the glyph's bit selects. -/
theorem State.textIndex_eq (s : State) (x y : Nat) :
    s.textIndex x y =
      let cell := y / 8 * (s.gpu.dec.width / 8) + x / 8
      let rows := entry s.gpu.glyph (s.stdByte (2 * cell))
      let attr := s.stdByte (2 * cell + 1)
      BitVec.ofNat 8 (if (rows.toList.getD (y % 8) 0).getLsbD (7 - x % 8) then attr.toNat / 16
        else attr.toNat % 16) := by
  extract_lets cell rows attr
  have hrow : rows.toList.getD (y % 8) 0 = rows[y % 8]'(Nat.mod_lt y (by decide)) := by
    simp [List.getD_eq_getElem?_getD, Nat.mod_lt]
  rw [hrow, apply_ite (BitVec.ofNat 8), ← cellForeground_eq, ← cellBackground_eq]
  rfl

/-- Settles O49: the fan-out stores the composed frame, whose pixel is `State.pixel`, case by case of the standard
plane. -/
theorem renderComposes : Obligations.RenderComposes := by
  intro s x y hs hgpu hx hy
  refine ⟨fun e k he => he.stdByte k, fun hcap k => State.extByte_of_le hcap k, _, s.underPixel x y,
    hs.exec_render hgpu, rfl, rfl, rfl, by simp [State.composed], s.underPixel_eq x y, ?_⟩
  have hpixel : ({ s with frame := s.composed } : State).frame.pixelAt x y = some (s.pixel x y) :=
    s.composed_pixelAt hx hy
  rw [hpixel, State.pixel, State.textIndex_eq]
  cases s.gpu.dec.stdEn <;> rfl

end Sys2Proof.Machine
end

section
/-! PROOFS. INIT on a configuration that holds: the GPU's tables and cleared registers, and one accepted pass for the
reset mode and row (44_gpu_render.md R330; 70_reset_and_hazards.md R443, R444; 10_state.md R51). -/

namespace Sys2Proof.Machine

/-! ## What the configuration gives (00_scope.md R8(a)) -/

/-- The kinds of the devices around the only one of its kind. -/
theorem kinds_eq_append_of_only {devs : List Device} {i : Nat} {d : Device} (hd : devs[i]? = some d)
    (hone : devs.countP (fun e => e.kind == d.kind) = 1) :
    ∃ before after, devs.map (·.kind) = before ++ d.kind :: after ∧ before.length = i ∧ d.kind ∉ before ∧
      d.kind ∉ after := by
  obtain ⟨hi, rfl⟩ := List.getElem?_eq_some_iff.mp hd
  have hsplit : devs.map (·.kind) = (devs.take i).map (·.kind) ++ devs[i].kind :: (devs.drop (i + 1)).map (·.kind) := by
    rw [← List.map_cons, ← List.map_append, ← List.drop_eq_getElem_cons, List.take_append_drop]
  have hcount : (devs.map (·.kind)).count devs[i].kind = 1 := by
    rw [List.count, List.countP_map]
    exact hone
  rw [hsplit, List.count_append, List.count_cons_self] at hcount
  refine ⟨_, _, hsplit, by simp [Nat.le_of_lt hi], List.count_eq_zero.mp (by omega), List.count_eq_zero.mp (by omega)⟩

/-- `VIDEO_BASE` is the base of the one VIDEO_RAM device. -/
theorem State.videoBase_of_countP {s : State} (hone : s.devs.countP (fun d => d.kind == .videoRam) = 1) {e : Device}
    (he : e ∈ s.devs) (hk : e.kind = .videoRam) : s.videoBase = e.range.base := by
  have hmem : e ∈ s.devs.filter (fun d => d.kind == .videoRam) := List.mem_filter.mpr ⟨he, beq_iff_eq.mpr hk⟩
  rw [List.countP_eq_length_filter] at hone
  obtain ⟨f, hf⟩ := List.length_eq_one_iff.mp hone
  rw [hf, List.mem_singleton] at hmem
  exact State.OneVideoRam.videoBase (hmem ▸ hf)

/-! ## OnInit of the GPU (44_gpu_render.md R330) -/

theorem onInit_of_ne_gpu (k : DeviceKind) (i : Nat) (s : State) (h : k ≠ .gpu) : onInit k i s = s := by
  cases k
  case gpu => exact absurd rfl h
  all_goals rfl

/-- INIT's fan-out is OnInit of the one GPU. -/
theorem State.fanOut_onInit {s : State} (hf : s.fault = none) {i : Nat} {d : Device} (hd : s.devs[i]? = some d)
    (hk : d.kind = .gpu) (hone : s.devs.countP (fun e => e.kind == .gpu) = 1) : s.fanOut onInit = s.gpuInit i := by
  obtain ⟨before, after, hkinds, rfl, hbefore, hafter⟩ := kinds_eq_append_of_only hd (hk ▸ hone)
  rw [hk] at hkinds hbefore hafter
  rw [State.fanOut, hkinds, fanOutFrom_first_gpu onInit_of_ne_gpu hbefore after 0 hf, Nat.zero_add]
  exact fanOutFrom_of_no_gpu onInit_of_ne_gpu hafter _ _

theorem State.clearBytes_gpu (s : State) (i : Nat) (offs : List Nat) : (s.clearBytes i offs).gpu = s.gpu := by
  induction offs generalizing s with
  | nil => rfl
  | cons off rest ih => exact ih _

theorem State.clearBytes_ownFields (s : State) (i : Nat) (offs : List Nat) :
    (s.clearBytes i offs).envDirty = s.envDirty ∧ (s.clearBytes i offs).draws = s.draws ∧
      (s.clearBytes i offs).resp = s.resp := by
  induction offs generalizing s with
  | nil => exact ⟨rfl, rfl, rfl⟩
  | cons off rest ih => exact ih _

theorem State.Canonical.clearBytes {s : State} {i : Nat} (h : s.Canonical i) (offs : List Nat) :
    (s.clearBytes i offs).Canonical i := by
  induction offs generalizing s with
  | nil => exact h
  | cons off rest ih => exact ih (h.setDevByte off 0x00)

/-- The backing bytes after some are cleared. -/
theorem State.Canonical.devByte_clearBytes {s : State} {i : Nat} (h : s.Canonical i) (offs : List Nat) (j o : Nat) :
    (s.clearBytes i offs).devByte j o = if j = i ∧ o ∈ offs then 0x00 else s.devByte j o := by
  induction offs generalizing s with
  | nil => simp [State.clearBytes]
  | cons off rest ih =>
    have hrest : (s.clearBytes i (off :: rest)).devByte j o =
        if j = i ∧ o ∈ rest then 0x00 else (s.setDevByte i off 0x00).devByte j o := ih (h.setDevByte off 0x00)
    rw [hrest, State.devByte_setDevByte h]
    grind

/-- The state in which OnInit runs its pass: the tables filled, the registers and the counter cleared. -/
def State.gpuCleared (s : State) (i : Nat) : State :=
  { s.clearBytes i initClearedOffsets with
    gpu := { s.gpu with
      palette := s.cfg.defaultPalette
      epalette := s.cfg.defaultPalette
      glyph := s.cfg.defaultFont
      widthCounter := 0
      accMode := 0x00
      accRes := 0x00 } }

theorem State.gpuInit_eq (s : State) (i : Nat) :
    s.gpuInit i = (s.gpuCleared i).runPass i s.cfg.resetMode s.cfg.resetRes := by
  have hcfg : (s.clearBytes i initClearedOffsets).cfg = s.cfg := (s.clearBytes_reaches i _).cfg
  simp only [State.gpuInit, State.gpuCleared, State.clearBytes_gpu, hcfg]

theorem State.gpuCleared_reaches (s : State) (i : Nat) : Reaches i s (s.gpuCleared i) :=
  (s.clearBytes_reaches i _).trans (Reaches.ofGpu i _ _)

theorem State.gpuInit_ownFields (s : State) (i : Nat) :
    (s.gpuInit i).envDirty = s.envDirty ∧ (s.gpuInit i).draws = s.draws ∧ (s.gpuInit i).resp = s.resp := by
  obtain ⟨hdirty, hdraws, hresp⟩ := s.clearBytes_ownFields i initClearedOffsets
  obtain ⟨hdirty', hdraws', hresp'⟩ := (s.gpuCleared i).runPass_ownFields i s.cfg.resetMode s.cfg.resetRes
  rw [s.gpuInit_eq i]
  exact ⟨hdirty'.trans hdirty, hdraws'.trans hdraws, hresp'.trans hresp⟩

/-- OnInit changes the GPU's internal state and the backing bytes of its device, and nothing else. -/
theorem State.gpuInit_rest (s : State) (i : Nat) : { s.gpuInit i with devs := s.devs, gpu := s.gpu } = s := by
  obtain ⟨hdirty, hdraws, hresp⟩ := s.gpuInit_ownFields i
  have hreaches : Reaches i s (s.gpuInit i) := onInit_reaches .gpu i s
  obtain ⟨hrest, -⟩ := hreaches.outsideKept hdraws hresp
  rwa [← hdirty] at hrest

theorem State.Canonical.devByte_gpuCleared {s : State} {i : Nat} (h : s.Canonical i) (j off : Nat) :
    (s.gpuCleared i).devByte j off = if j = i ∧ off ∈ initClearedOffsets then 0x00 else s.devByte j off :=
  h.devByte_clearBytes initClearedOffsets j off

/-- The pass of OnInit, with GPU_OPTIONS cleared, leaves what the pass on the state before decides. -/
theorem State.Canonical.gpuInit_outcome {s : State} {i : Nat} (h : s.Canonical i) :
    PassOutcome (s.gpuCleared i) (s.gpuInit i) i
      (decodePass s.cfg s.videoBase 0x00 s.cfg.resetMode s.cfg.resetRes) := by
  have hreaches := s.gpuCleared_reaches i
  have hcleared : (s.gpuCleared i).Canonical i := h.clearBytes initClearedOffsets
  have hoptions : (s.gpuCleared i).devByte i regOptions = 0x00 := by
    rw [h.devByte_gpuCleared, if_pos ⟨rfl, by decide⟩]
  have hpass := hcleared.runPass_outcome s.cfg.resetMode s.cfg.resetRes
  rw [hreaches.cfg, hreaches.devices.videoBase, hoptions, ← s.gpuInit_eq] at hpass
  exact hpass

theorem decodePass_accept_res {p : Params} {base : Nat} {opt mode res : Byte} {r : Applied}
    (h : decodePass p base opt mode res = .accept r) : r.res = res := by
  obtain ⟨-, sb, eb, -, -, rfl⟩ := decodePass_eq_accept_iff.mp h
  rfl

/-! ## INIT (40_bus.md R176) -/

theorem exec_init {s : State} (hf : s.fault = none) (hp : s.phase = .construct) (hconf : s.configured = true) :
    exec .init s = .next { s.fanOut onInit with phase := .ready } := by
  have hrow : exec .init s = execInit s := rfl
  rw [hrow, execInit, State.admit_open hf (by simp [hp]), if_pos hconf]

/-- Settles O42: the fan-out is OnInit of the one GPU, whose pass accepts as the configuration demands. -/
theorem initBoots : Obligations.InitBoots := by
  intro s i d hinv hf hp hconf hd hk
  obtain ⟨hkinds, -, -, ⟨r, hr⟩, -⟩ := s.configured_iff.mp hconf
  have hcanon := hinv.canonical hd
  have houtcome := hcanon.gpuInit_outcome
  rw [hr] at houtcome
  obtain ⟨hmode, hres, hmsb, hlsb, hgpu, hkept⟩ := houtcome
  obtain ⟨hdirty, -⟩ := s.gpuInit_ownFields i
  have hinit := exec_init hf hp hconf
  rw [State.fanOut_onInit hf hd hk (hkinds .gpu (by simp))] at hinit
  have hcleared : ∀ off ∈ initClearedOffsets, (s.gpuInit i).devByte i off = 0x00 := by
    intro off hoff
    have hpassed : ¬ (i = i ∧ (off = 0x00 ∨ off = 0x01 ∨ off = 0x03 ∨ off = 0x04)) := by
      rintro ⟨-, rfl | rfl | rfl | rfl⟩ <;> exact absurd hoff (by decide)
    rw [hkept i off hpassed, hcanon.devByte_gpuCleared, if_pos ⟨rfl, hoff⟩]
  have hothers : BytesKept s (s.gpuCleared i) fun j off => j = i ∧ off ∈ initClearedOffsets :=
    fun j off h => by rw [hcanon.devByte_gpuCleared, if_neg h]
  have hbytes : BytesKept s (s.gpuInit i) fun j off => j = i ∧ (off ≤ 0x05 ∨ off = 0x08 ∨ off = 0x0B ∨
      (0x14 ≤ off ∧ off ≤ 0x19) ∨ off = 0x1B ∨ off = 0x1C) := by
    refine (hothers.mono ?_).trans (hkept.mono ?_)
    · rintro j off ⟨hj, hoff⟩
      simp only [initClearedOffsets, List.mem_cons, List.not_mem_nil, or_false] at hoff
      omega
    · omega
  exact ⟨_, r, hinit, hr, fun e he hvideo => s.videoBase_of_countP (hkinds .videoRam (by simp)) he hvideo, rfl,
    hdirty, hgpu, hmode, hres.trans (decodePass_accept_res hr), hmsb, hlsb, hcleared,
    hbytes, (onInit_reaches .gpu i s).devices, congrArg (fun t => { t with phase := s.phase }) (s.gpuInit_rest i)⟩

end Sys2Proof.Machine
end

section
/-! PROOFS. The blit streaming port: the width's writes reload the hidden counter, a data-port access moves one byte of
secondary memory and advances the port, and a run of accesses visits a rectangle row by row (45_blit.md R343 to R346,
R350). -/

namespace Sys2Proof.Machine

/-! ## GPU_BLIT_WIDTH (45_blit.md R343) -/

/-- The width after its high byte is stored. -/
theorem State.Canonical.blitWidth_storeMsb {s : State} {i : Nat} (h : s.Canonical i) (v : Byte) :
    (s.setDevByte i regBlitWidth v).blitWidth i = be16 v (s.devByte i (regBlitWidth + 1)) := by
  rw [State.blitWidth, State.devWord, State.devByte_setDevByte h, State.devByte_setDevByte h, if_pos ⟨rfl, rfl⟩,
    if_neg (by simp)]

/-- The width after its low byte is stored. -/
theorem State.Canonical.blitWidth_storeLsb {s : State} {i : Nat} (h : s.Canonical i) (v : Byte) :
    (s.setDevByte i (regBlitWidth + 1) v).blitWidth i = be16 (s.devByte i regBlitWidth) v := by
  rw [State.blitWidth, State.devWord, State.devByte_setDevByte h, State.devByte_setDevByte h, if_neg (by simp),
    if_pos ⟨rfl, rfl⟩]

/-- A width write reloads the counter with the width that its store leaves. -/
theorem writeBlitWidth_gpu {s : State} {i off : Nat} {v : Byte} {w : Word}
    (h : (s.setDevByte i off v).blitWidth i = w) :
    (writeBlitWidth i off v s).gpu = { s.gpu with widthCounter := w } := by
  rw [← h]
  rfl

/-- Settles O30: each write is its store and the reload with the width the store leaves. -/
theorem widthWrites : Obligations.WidthWrites := by
  intro s v hs hinv
  have hcanon := hs.canonical hinv
  obtain ⟨hmsb, -, hmsbDevices, hmsbKept⟩ := hcanon.storesByte regBlitWidth v
  obtain ⟨hlsb, -, hlsbDevices, hlsbKept⟩ := hcanon.storesByte (regBlitWidth + 1) v
  exact ⟨⟨_, hs.atDevice fun i t => writeBlitWidth i regBlitWidth v t, hmsb,
      writeBlitWidth_gpu (hcanon.blitWidth_storeMsb v), hmsbKept, hmsbDevices, rfl⟩,
    ⟨_, hs.atDevice fun i t => writeBlitWidth i (regBlitWidth + 1) v t, hlsb,
      writeBlitWidth_gpu (hcanon.blitWidth_storeLsb v), hlsbKept, hlsbDevices, rfl⟩⟩

/-! ## The advance (45_blit.md R345) -/

theorem nextBlitAddr_within {a p w c : Word} (h : 1 < c.toNat) :
    (nextBlitAddr a p w c).toNat = (a.toNat + 1) % 65536 := by
  have hc : (1 : Word) < c := h
  rw [nextBlitAddr, if_pos hc]
  exact BitVec.toNat_add a 1

/-- At the end of a row the sum of 16-bit values is the row jump on integers, modulo 65536. -/
theorem nextBlitAddr_rowEnd {a p w c : Word} (h : c.toNat ≤ 1) :
    ((nextBlitAddr a p w c).toNat : Int) = ((a.toNat : Int) + 1 + p.toNat - w.toNat) % 65536 := by
  have hc : ¬ (1 : Word) < c := Nat.not_lt.mpr h
  rw [nextBlitAddr, if_neg hc]
  bv_omega

theorem nextCounter_within {w c : Word} (h : 1 < c.toNat) : (nextCounter w c).toNat = c.toNat - 1 := by
  have hc : (1 : Word) < c := h
  rw [nextCounter, if_pos hc]
  bv_omega

theorem nextCounter_rowEnd {w c : Word} (h : c.toNat ≤ 1) : nextCounter w c = w :=
  if_neg (Nat.not_lt.mpr h : ¬ (1 : Word) < c)

/-- A word stored in two bytes of a device reads back (20_memory.md R84). -/
theorem State.Canonical.devWord_setDevWord_self {s : State} {i : Nat} (h : s.Canonical i) (off : Nat) (w : Word) :
    (s.setDevWord i off w).devWord i off = w := by
  have hmsb := h.setDevByte off (hi8 w)
  rw [State.devWord, State.setDevWord, State.devByte_setDevByte hmsb, State.devByte_setDevByte hmsb,
    State.devByte_setDevByte h, if_neg (by simp), if_pos ⟨rfl, rfl⟩, if_pos ⟨rfl, rfl⟩, be16_hi8_lo8]

theorem State.setDevWord_bytesKept (s : State) (i off : Nat) (w : Word) :
    BytesKept s (s.setDevWord i off w) fun j o => j = i ∧ (o = off ∨ o = off + 1) :=
  ((s.setDevByte_bytesKept i off _).mono fun _ _ ⟨hj, ho⟩ => ⟨hj, .inl ho⟩).trans
    (((s.setDevByte i off _).setDevByte_bytesKept i (off + 1) _).mono fun _ _ ⟨hj, ho⟩ => ⟨hj, .inr ho⟩)

theorem State.Canonical.blitAddr_blitAdvance {s : State} {i : Nat} (h : s.Canonical i) :
    (s.blitAdvance i).blitAddr i =
      nextBlitAddr (s.blitAddr i) (s.blitPitch i) (s.blitWidth i) s.gpu.widthCounter := by
  have hcounted : (s.setCounter (nextCounter (s.blitWidth i) s.gpu.widthCounter)).Canonical i := h
  exact hcounted.devWord_setDevWord_self regBlitAddr _

theorem State.Canonical.portAdvanced {s : State} {i : Nat} (h : s.Canonical i) :
    PortAdvanced s (s.blitAdvance i) i := by
  have haddr := h.blitAddr_blitAdvance
  refine ⟨fun hc => ⟨?_, nextCounter_within hc⟩, fun hc => ⟨?_, congrArg _ (nextCounter_rowEnd hc)⟩,
    State.setDevWord_bytesKept _ i regBlitAddr _, (s.blitAdvance_reaches i).devices⟩
  · rw [haddr, nextBlitAddr_within hc]
  · rw [haddr, nextBlitAddr_rowEnd hc]

/-! ## GPU_BLIT_DATA (45_blit.md R344, R346) -/

/-- The port's address is an address of secondary memory: 65536 bytes, so it does not wrap. -/
theorem toNat_mod_extMemSize (a : Word) : a.toNat % extMemSize = a.toNat := Nat.mod_eq_of_lt a.isLt

theorem State.Inv.read_extWrite {s : State} (h : s.Inv) (a : Word) (v : Byte) (x : Nat) :
    (s.extWrite a.toNat v).gpu.ext.read x = if x = a.toNat then v else s.gpu.ext.read x := by
  rw [State.extWrite, toNat_mod_extMemSize]
  exact Memory.read_write s.gpu.ext a.toNat x v h.ext.1

theorem blitRead_value (i : Nat) (s : State) : (blitRead i s).1 = s.gpu.ext.read (s.blitAddr i).toNat := by
  rw [blitRead, State.extRead, toNat_mod_extMemSize]

theorem State.PortOpen.exec_blitRead {s : State} (hs : s.PortOpen .gpu) :
    exec .rdGpuBlitData s =
      .next (Answered (s.blitAdvance s.target) (.byte (s.gpu.ext.read (s.blitAddr s.target).toNat))) := by
  rw [← blitRead_value]
  exact hs.atDevice fun i t => (blitRead i t).2.respond (.byte (blitRead i t).1)

theorem State.PortOpen.exec_blitWrite {s : State} (hs : s.PortOpen .gpu) (v : Byte) :
    exec (.wrGpuBlitData v) s = .next (blitWrite s.target v s) :=
  hs.atDevice fun i t => blitWrite i v t

/-- The store into secondary memory moves no register, so the port advances from the state before it. -/
theorem State.Canonical.blitWrite_portAdvanced {s : State} {i : Nat} (h : s.Canonical i) (v : Byte) :
    PortAdvanced s (blitWrite i v s) i := by
  have hstored : (s.extWrite (s.blitAddr i).toNat v).Canonical i := h
  exact hstored.portAdvanced

/-- Settles O31: either access moves the byte at the port's address, and then the port advances. -/
theorem blitDataAccess : Obligations.BlitDataAccess := by
  intro s v hs hinv a
  have hcanon := hs.canonical hinv
  exact ⟨⟨_, hs.exec_blitRead, rfl, hcanon.portAdvanced, rfl⟩,
    ⟨_, hs.exec_blitWrite v, hinv.read_extWrite (s.blitAddr s.target) v, hcanon.blitWrite_portAdvanced v, rfl⟩⟩

/-! ## Runs of accesses (45_blit.md R350) -/

theorem Reaches.portOpen {i : Nat} {s t : State} {k : DeviceKind} (h : Reaches i s t) (hs : s.PortOpen k) :
    t.PortOpen k := by
  obtain ⟨hopen, d, hd, hk⟩ := hs
  obtain ⟨e, he, hek, -⟩ := h.devices.getElem? hd
  exact ⟨h.busOpen hopen, e, by rw [h.target, he], hek.trans hk⟩

/-- Either access completes and advances the port. -/
theorem State.PortOpen.exec_portAccess {s : State} (hs : s.PortOpen .gpu) (hinv : s.Inv) {i : Instr}
    (hi : IsPortAccess i) : ∃ t, exec i s = .next t ∧ Reaches s.target s t ∧ PortAdvanced s t s.target := by
  have hcanon := hs.canonical hinv
  rcases hi with rfl | ⟨v, rfl⟩
  · exact ⟨_, hs.exec_blitRead, (s.blitAdvance_reaches s.target).trans (State.respond_reaches _ _ _),
      hcanon.portAdvanced⟩
  · exact ⟨_, hs.exec_blitWrite v, blitWrite_reaches s.target v s, hcanon.blitWrite_portAdvanced v⟩

theorem BytesKept.devWord {s t : State} {stored : Nat → Nat → Prop} (h : BytesKept s t stored) {i off : Nat}
    (hmsb : ¬ stored i off) (hlsb : ¬ stored i (off + 1)) : t.devWord i off = s.devWord i off := by
  rw [State.devWord, State.devWord, h i off hmsb, h i (off + 1) hlsb]

/-- In `t` the port of `s` stands at column `k` of row `r` of the rectangle that begins at its address in `s`: pitch
and width are those of `s`, and the counter holds how many bytes of the row are left. -/
structure State.PortAt (s : State) (r k : Nat) (t : State) : Prop where
  portOpen : t.PortOpen .gpu
  inv : t.Inv
  target : t.target = s.target
  pitch : t.blitPitch s.target = s.blitPitch s.target
  width : t.blitWidth s.target = s.blitWidth s.target
  addr : (t.blitAddr s.target).toNat =
    ((s.blitAddr s.target).toNat + r * (s.blitPitch s.target).toNat + k) % 65536
  counter : t.gpu.widthCounter.toNat + k = (s.blitWidth s.target).toNat

theorem State.PortAt.refl {s : State} (hs : s.PortOpen .gpu) (hinv : s.Inv)
    (hfresh : s.gpu.widthCounter = s.blitWidth s.target) : s.PortAt 0 0 s where
  portOpen := hs
  inv := hinv
  target := rfl
  pitch := rfl
  width := rfl
  addr := by
    have := (s.blitAddr s.target).isLt
    omega
  counter := by rw [hfresh, Nat.add_zero]

/-- Two places of a rectangle that as many accesses reach are one place. -/
theorem place_unique {w r k r' k' : Nat} (hk : k < w) (hk' : k' < w) (h : r * w + k = r' * w + k') :
    r = r' ∧ k = k' := by
  rw [Nat.add_comm, Nat.add_comm _ k', Nat.mul_comm, Nat.mul_comm r'] at h
  obtain ⟨hrow, hcolumn⟩ := (Nat.div_mod_unique (Nat.zero_lt_of_lt hk)).mpr ⟨h, hk⟩
  obtain ⟨hrow', hcolumn'⟩ := (Nat.div_mod_unique (Nat.zero_lt_of_lt hk)).mpr ⟨rfl, hk'⟩
  exact ⟨hrow.symm.trans hrow', hcolumn.symm.trans hcolumn'⟩

section rectangle

variable {s t : State} {r k : Nat}

/-- An access goes to the next column of the row, and from the last one to the first of the next row. -/
theorem State.PortAt.access (h : s.PortAt r k t) (hk : k < (s.blitWidth s.target).toNat) {i : Instr}
    (hi : IsPortAccess i) :
    ∃ u, exec i t = .next u ∧ (k + 1 < (s.blitWidth s.target).toNat → s.PortAt r (k + 1) u) ∧
      (k + 1 = (s.blitWidth s.target).toNat → s.PortAt (r + 1) 0 u) := by
  obtain ⟨u, hexec, hreaches, hadvanced⟩ := h.portOpen.exec_portAccess h.inv hi
  rw [h.target] at hadvanced
  obtain ⟨hwithin, hrowEnd, hkept, -⟩ := hadvanced
  have hopen := hreaches.portOpen h.portOpen
  have hinv := (exec_effect hexec).inv h.inv
  have htarget := hreaches.target.trans h.target
  have hpitch := (hkept.devWord (i := s.target) (off := regBlitPitch) (by simp) (by simp)).trans h.pitch
  have hwidth := (hkept.devWord (i := s.target) (off := regBlitWidth) (by simp) (by simp)).trans h.width
  have haddr := h.addr
  have hcounter := h.counter
  refine ⟨u, hexec, fun hnext => ?_, fun hlast => ?_⟩
  · obtain ⟨haddr', hcounter'⟩ := hwithin (by omega)
    exact ⟨hopen, hinv, htarget, hpitch, hwidth, by omega, by omega⟩
  · obtain ⟨haddr', hcounter'⟩ := hrowEnd (by omega)
    rw [h.pitch, h.width] at haddr'
    rw [h.width] at hcounter'
    have hrow := Nat.add_one_mul r (s.blitPitch s.target).toNat
    exact ⟨hopen, hinv, htarget, hpitch, hwidth, by omega, hcounter'⟩

/-- Any accesses complete, and they lead from a place of the rectangle to the one as many accesses later. -/
theorem State.PortAt.run_accesses (h : s.PortAt r k t) (hk : k < (s.blitWidth s.target).toNat) {l : List Instr}
    (hl : ∀ i ∈ l, IsPortAccess i) {r' k' : Nat} (hk' : k' < (s.blitWidth s.target).toNat)
    (hplace : r * (s.blitWidth s.target).toNat + k + l.length = r' * (s.blitWidth s.target).toNat + k') :
    ∃ u, run l t = .next u ∧ s.PortAt r' k' u := by
  induction l generalizing r k t with
  | nil =>
    obtain ⟨rfl, rfl⟩ := place_unique hk hk' hplace
    exact ⟨t, rfl, h⟩
  | cons i rest ih =>
    obtain ⟨hi, hrest⟩ := List.forall_mem_cons.mp hl
    obtain ⟨u, hexec, hnext, hlast⟩ := h.access hk hi
    rw [List.length_cons] at hplace
    rw [run_cons hexec]
    rcases Nat.lt_or_eq_of_le hk with hlt | heq
    · exact ih (hnext hlt) hlt hrest (by omega)
    · have hrow := Nat.add_one_mul r (s.blitWidth s.target).toNat
      exact ih (hlast heq) (by omega) hrest (by omega)

end rectangle

/-- Settles O32: a fresh counter is column 0 of row 0, and `run_accesses` leads from there to every place. -/
theorem blitSequencing : Obligations.BlitSequencing := by
  intro s w accesses hs hinv hw hpos _ hfresh haccesses hlength
  subst hw
  have hstart := State.PortAt.refl hs hinv hfresh
  refine ⟨fun r k hr hk => ?_, ?_⟩
  · have hrow := Nat.mul_le_mul_right (s.blitWidth s.target).toNat (Nat.le_of_lt_succ hr)
    have htake : (accesses.take (r * (s.blitWidth s.target).toNat + k)).length =
        r * (s.blitWidth s.target).toNat + k := List.length_take_of_le (by omega)
    have hmem : ∀ i ∈ accesses.take (r * (s.blitWidth s.target).toNat + k), IsPortAccess i :=
      fun i hi => haccesses i (List.mem_of_mem_take hi)
    obtain ⟨t, hrun, ht⟩ := hstart.run_accesses hpos hmem hk (r' := r) (by omega)
    exact ⟨t, hrun, ht.addr⟩
  · obtain ⟨t, hrun, ht⟩ := hstart.run_accesses hpos haccesses hpos (r' := 2) (by omega)
    exact ⟨t, hrun, ht.addr, ht.counter⟩

end Sys2Proof.Machine
end

section
/-! PROOFS. The command coprocessor and the error register: what each dispatch commits and reports, GPU_CMD after it,
and that no normal operation after INIT clears GPU_ERROR (46_command.md R361 to R373). -/

namespace Sys2Proof.Machine

/-! ## The cases of a dispatch (46_command.md R361 to R364) -/

theorem State.commandEntry_eq_none_iff {s : State} {op : Byte} :
    s.commandEntry op = none ↔ ∀ e ∈ s.cfg.commandTable, e.opcode ≠ op := by
  simp [State.commandEntry]

section dispatch

variable {s : State} {handlers : Nat → HandlerView → HandlerResult} {op : Byte} {e : CommandEntry}

theorem State.dispatchWith_known (h : s.commandEntry op = some e) (i : Nat) :
    s.dispatchWith i handlers op = s.dispatchKnown i handlers e := by
  simp only [State.dispatchWith, h]

theorem State.dispatchWith_unknown (h : s.commandEntry op = none) (i : Nat) :
    s.dispatchWith i handlers op = (s.setError i .invalidCommand).clearCommand i := by
  simp only [State.dispatchWith, h, State.dispatchUnknown]

theorem State.dispatchKnown_success {i : Nat} {w : HandlerWrites}
    (h : handlers e.handler (s.handlerView i) = .success w) :
    s.dispatchKnown i handlers e = (s.commitHandler i w).clearCommand i := by
  simp only [State.dispatchKnown, State.runHandler, h]

theorem State.dispatchKnown_failure {i : Nat} {c : HandlerError}
    (h : handlers e.handler (s.handlerView i) = .failure c) :
    s.dispatchKnown i handlers e = (s.setError i (.handler c)).clearCommand i := by
  simp only [State.dispatchKnown, State.runHandler, h]

/-- What a dispatch can do: commit what a handler writes, or report an error; then it clears GPU_CMD. -/
theorem State.dispatchWith_cases (s : State) (i : Nat) (handlers : Nat → HandlerView → HandlerResult) (op : Byte) :
    (∃ w, s.dispatchWith i handlers op = (s.commitHandler i w).clearCommand i) ∨
      ∃ c, c ≠ .none ∧ s.dispatchWith i handlers op = (s.setError i c).clearCommand i := by
  cases hentry : s.commandEntry op with
  | none => exact .inr ⟨.invalidCommand, by decide, State.dispatchWith_unknown hentry i⟩
  | some e =>
    rw [State.dispatchWith_known hentry]
    cases hresult : handlers e.handler (s.handlerView i) with
    | success w => exact .inl ⟨w, State.dispatchKnown_success hresult⟩
    | failure c => exact .inr ⟨.handler c, by simp, State.dispatchKnown_failure hresult⟩

end dispatch

/-! ## What each case leaves -/

section outcomes

variable {s : State} {i : Nat}

theorem State.Canonical.setDevWord (h : s.Canonical i) (off : Nat) (w : Word) : (s.setDevWord i off w).Canonical i :=
  (h.setDevByte off (hi8 w)).setDevByte (off + 1) (lo8 w)

theorem State.Canonical.commitHandler (h : s.Canonical i) (w : HandlerWrites) : (s.commitHandler i w).Canonical i :=
  State.Canonical.setDevWord (State.Canonical.setDevWord (State.Canonical.setDevWord h _ _) _ _) _ _

theorem State.Canonical.setError (h : s.Canonical i) (c : ErrorCode) : (s.setError i c).Canonical i :=
  h.setDevByte regError (errorCode c)

theorem State.Canonical.devByte_clearCommand (h : s.Canonical i) (j off : Nat) :
    (s.clearCommand i).devByte j off = if j = i ∧ off = 0x1B then 0x00 else s.devByte j off :=
  State.devByte_setDevByte h regCmd j off 0x00

theorem State.Canonical.devByte_setError (h : s.Canonical i) (c : ErrorCode) (j off : Nat) :
    (s.setError i c).devByte j off = if j = i ∧ off = 0x1C then errorCode c else s.devByte j off :=
  State.devByte_setDevByte h regError j off (errorCode c)

/-- A dispatch that reports an error stores its code and clears GPU_CMD, and changes nothing else. -/
theorem State.Canonical.reportedError (h : s.Canonical i) (c : ErrorCode) :
    ((s.setError i c).clearCommand i).devByte i 0x1C = errorCode c ∧
      ((s.setError i c).clearCommand i).devByte i 0x1B = 0x00 ∧
      OnlyBytes s ((s.setError i c).clearCommand i) (fun j off => j = i ∧ (off = 0x1B ∨ off = 0x1C)) := by
  have hread (j off : Nat) := (h.setError c).devByte_clearCommand j off
  have hdevices := (s.setError_reaches i c).devices.trans (State.setDevByte_sameDevices _ i regCmd 0x00)
  refine ⟨?_, ?_, rfl, hdevices, fun j off hne => ?_⟩ <;> rw [hread]
  · simp [h.devByte_setError]
  · simp
  · rw [h.devByte_setError]
    grind

/-- The three blit registers after a handler's writes: each is stored after the others or beside them. -/
theorem State.Canonical.commitHandler_registers (h : s.Canonical i) (w : HandlerWrites) :
    (s.commitHandler i w).blitAddr i = w.blitAddr ∧ (s.commitHandler i w).blitPitch i = w.blitPitch ∧
      (s.commitHandler i w).blitWidth i = w.blitWidth := by
  have keeps (t : State) {off other : Nat} (v : Word) (hlt : off + 1 < other) :
      (t.setDevWord i other v).devWord i off = t.devWord i off :=
    (t.setDevWord_bytesKept i other v).devWord (by omega) (by omega)
  have haddr : State.Canonical _ i := State.Canonical.setDevWord h regBlitAddr w.blitAddr
  have hpitch := haddr.setDevWord regBlitPitch w.blitPitch
  refine ⟨?_, ?_, hpitch.devWord_setDevWord_self regBlitWidth w.blitWidth⟩
  · exact (keeps _ _ (by decide)).trans ((keeps _ _ (by decide)).trans
      (State.Canonical.devWord_setDevWord_self h regBlitAddr w.blitAddr))
  · exact (keeps _ _ (by decide)).trans (haddr.devWord_setDevWord_self regBlitPitch w.blitPitch)

/-- A handler's commit stores the blit registers and no other byte (46_command.md R367). -/
theorem State.commitHandler_bytesKept (s : State) (i : Nat) (w : HandlerWrites) :
    BytesKept s (s.commitHandler i w) fun j off => j = i ∧ 0x14 ≤ off ∧ off ≤ 0x19 := by
  have stores (t : State) (off : Nat) (v : Word) (ho : 0x14 ≤ off ∧ off ≤ 0x18) :
      BytesKept t (t.setDevWord i off v) fun j o => j = i ∧ 0x14 ≤ o ∧ o ≤ 0x19 :=
    (t.setDevWord_bytesKept i off v).mono fun j o ⟨hj, hoff⟩ => ⟨hj, by omega⟩
  exact ((stores _ regBlitAddr w.blitAddr (by decide)).trans (stores _ regBlitPitch w.blitPitch (by decide))).trans
    (stores _ regBlitWidth w.blitWidth (by decide))

/-- A dispatch whose handler succeeds stores the blit registers and GPU_CMD, and no other byte. -/
theorem State.commitHandler_clearCommand_bytesKept (s : State) (i : Nat) (w : HandlerWrites) :
    BytesKept s ((s.commitHandler i w).clearCommand i) fun j off =>
      j = i ∧ ((0x14 ≤ off ∧ off ≤ 0x19) ∨ off = 0x1B) :=
  ((s.commitHandler_bytesKept i w).mono fun _ _ ⟨hj, hoff⟩ => ⟨hj, .inl hoff⟩).trans
    (((s.commitHandler i w).setDevByte_bytesKept i regCmd 0x00).mono fun _ _ ⟨hj, hoff⟩ => ⟨hj, .inr hoff⟩)

theorem State.devWord_clearCommand (s : State) (i : Nat) {off : Nat} (h : off + 1 < regCmd) :
    (s.clearCommand i).devWord i off = s.devWord i off :=
  (s.setDevByte_bytesKept i regCmd 0x00).devWord (by omega) (by omega)

/-- GPU_CMD is cleared by every dispatch, the last thing it does (46_command.md R365). -/
theorem State.Canonical.dispatchWith_clears (h : s.Canonical i) (handlers : Nat → HandlerView → HandlerResult)
    (op : Byte) : (s.dispatchWith i handlers op).devByte i 0x1B = 0x00 := by
  rcases s.dispatchWith_cases i handlers op with ⟨w, e⟩ | ⟨c, -, e⟩ <;> rw [e]
  · simp [(h.commitHandler w).devByte_clearCommand]
  · simp [(h.setError c).devByte_clearCommand]

end outcomes

/-! ## The obligations on one dispatch -/

theorem State.PortOpen.exec_wrGpuCmd {s : State} (hs : s.PortOpen .gpu) (op : Byte) :
    exec (.wrGpuCmd op) s = .next (s.dispatchWith s.target Config.handler op) :=
  hs.atDevice fun i t => writeCmd i op t

/-- The coprocessor's own row of an opcode is the same dispatch (46_command.md R362). -/
theorem State.PortOpen.exec_cmdUnknown_dispatch {s : State} (hs : s.PortOpen .gpu) {op : Byte}
    (h : s.commandEntry op = none) :
    exec (.cmdUnknown op) s = .next (s.dispatchWith s.target Config.handler op) := by
  rw [State.dispatchWith_unknown h]
  simp only [exec, execCmdUnknown, h]
  exact hs.atDevice fun i t => t.dispatchUnknown i

/-- The coprocessor's own row of an opcode is the same dispatch (46_command.md R363). -/
theorem State.PortOpen.exec_cmdKnown_dispatch {s : State} (hs : s.PortOpen .gpu) {op : Byte} {e : CommandEntry}
    (h : s.commandEntry op = some e) :
    exec (.cmdKnown op) s = .next (s.dispatchWith s.target Config.handler op) := by
  rw [State.dispatchWith_known h]
  simp only [exec, execCmdKnown, h]
  exact hs.atDevice fun i t => t.dispatchKnown i Config.handler e

/-- Settles O33: both rows are the dispatch that reports the code of an invalid command. -/
theorem unknownCommand : Obligations.UnknownCommand := by
  intro s op hs hinv hop
  have hentry := State.commandEntry_eq_none_iff.mpr hop
  obtain ⟨herr, hcmd, honly⟩ := (hs.canonical hinv).reportedError .invalidCommand
  rw [← State.dispatchWith_unknown (handlers := Config.handler) hentry] at herr hcmd honly
  exact ⟨_, hs.exec_wrGpuCmd op, hs.exec_cmdUnknown_dispatch hentry, herr, hcmd, honly⟩

/-- Settles O34: both rows are the dispatch. -/
theorem knownCommand : Obligations.KnownCommand := fun _ op _ hs hentry =>
  ⟨_, hs.exec_wrGpuCmd op, hs.exec_cmdKnown_dispatch hentry, rfl⟩

/-- Settles O35: the dispatch is the commit of the handler's writes and the clearing of GPU_CMD. -/
theorem handlerSuccess : Obligations.HandlerSuccess := by
  intro s i d handlers op e w hinv hd _ hentry hresult
  rw [← State.handlerView_eq hd] at hresult
  have hcanon := hinv.canonical hd
  have kept {off : Nat} (ho : off + 1 < regCmd) := (s.commitHandler i w).devWord_clearCommand i ho
  obtain ⟨haddr, hpitch, hwidth⟩ := hcanon.commitHandler_registers w
  refine ⟨_, rfl, ?_⟩
  rw [State.dispatchWith_known hentry, State.dispatchKnown_success hresult]
  exact ⟨rfl, (kept (by decide)).trans haddr, (kept (by decide)).trans hpitch, (kept (by decide)).trans hwidth,
    by simp [(hcanon.commitHandler w).devByte_clearCommand],
    s.commitHandler_clearCommand_bytesKept i w,
    ((s.commitHandler_reaches i w).trans (State.setDevByte_reaches _ i regCmd 0x00)).devices, rfl⟩

/-- Settles O36: the dispatch reports the handler's code. -/
theorem handlerFailure : Obligations.HandlerFailure := by
  intro s i d handlers op e c hinv hd _ hentry hresult
  rw [← State.handlerView_eq hd] at hresult
  obtain ⟨herr, hcmd, honly⟩ := (hinv.canonical hd).reportedError (.handler c)
  rw [← State.dispatchKnown_failure hresult, ← State.dispatchWith_known hentry] at herr hcmd honly
  exact ⟨_, rfl, herr.trans (by cases c <;> rfl), hcmd, honly⟩

/-- Settles O37: a dispatch leaves the port open and GPU_CMD clear, and GPU_CMD has no read handler. -/
theorem commandRegisterClears : Obligations.CommandRegisterClears := by
  intro s op hs hinv
  have hreaches := s.dispatchWith_reaches s.target Config.handler op
  have hopen := hreaches.portOpen hs
  have hread := hopen.exec_readRow (off := regCmd) (i := .rdGpuCmd) rfl rfl
  rw [hreaches.target, (hs.canonical hinv).dispatchWith_clears] at hread
  exact ⟨_, hs.exec_wrGpuCmd op, hopen, hread⟩

/-! ## The error register is sticky (46_command.md R371, R373) -/

/-- An error in GPU_ERROR of the i-th device, if there is one, is still one: the same, or a later one. -/
def ErrorStays (i : Nat) (s t : State) : Prop := s.devByte i regError ≠ 0 → t.devByte i regError ≠ 0

theorem ErrorStays.refl (i : Nat) (s : State) : ErrorStays i s s := id

theorem ErrorStays.trans {i : Nat} {s t u : State} (h : ErrorStays i s t) (h' : ErrorStays i t u) :
    ErrorStays i s u := h' ∘ h

theorem BytesKept.errorStays {s t : State} {stored : Nat → Nat → Prop} (h : BytesKept s t stored) {i : Nat}
    (hi : ¬ stored i regError) : ErrorStays i s t := fun hs => h i regError hi ▸ hs

theorem ErrorStays.of_getElem? {i : Nat} {s t : State} (h : t.devs[i]? = s.devs[i]?) : ErrorStays i s t := by
  simp only [ErrorStays, State.devByte, h, imp_self]

theorem ErrorStays.of_devs_eq {i : Nat} {s t : State} (h : t.devs = s.devs) : ErrorStays i s t :=
  .of_getElem? (congrArg (·[i]?) h)

/-- Every code but that of no error is nonzero (46_command.md R370). -/
theorem errorCode_ne_zero {c : ErrorCode} (h : c ≠ .none) : errorCode c ≠ 0 := by
  cases c with
  | none => exact absurd rfl h
  | invalidCommand => decide
  | handler e => cases e <;> decide
  | bufferOverrun => decide

theorem State.setDevByte_errorStays (s : State) (i : Nat) {off : Nat} (h : off ≠ regError) (v : Byte) :
    ErrorStays i s (s.setDevByte i off v) :=
  (s.setDevByte_bytesKept i off v).errorStays fun ⟨_, ho⟩ => h ho.symm

/-- A decode pass stores an overrun's code, or leaves the register (43_gpu_decode.md R287 to R289). -/
theorem PassOutcome.errorStays {s t : State} {i : Nat} {p : PassResult} (h : PassOutcome s t i p) :
    ErrorStays i s t := by
  cases p with
  | accept r =>
    obtain ⟨-, -, -, -, -, hkept⟩ := h
    exact hkept.errorStays (by simp)
  | reject =>
    obtain ⟨-, -, -, hkept⟩ := h
    exact hkept.errorStays (by simp)
  | overrun =>
    obtain ⟨herr, -⟩ := h
    exact fun _ => herr ▸ by decide

section accesses

variable {s : State} {i : Nat}

/-- A dispatch that commits leaves the register, any other stores a code. -/
theorem State.Canonical.dispatchWith_errorStays (h : s.Canonical i) (handlers : Nat → HandlerView → HandlerResult)
    (op : Byte) : ErrorStays i s (s.dispatchWith i handlers op) := by
  rcases s.dispatchWith_cases i handlers op with ⟨w, e⟩ | ⟨c, hc, e⟩ <;> rw [e]
  · exact (s.commitHandler_clearCommand_bytesKept i w).errorStays (by simp [regError])
  · obtain ⟨herr, -⟩ := h.reportedError c
    exact fun _ => herr ▸ errorCode_ne_zero hc

/-- A normal write of a GPU byte leaves an error: GPU_ERROR itself is read-only (46_command.md R369). -/
theorem State.Canonical.gpuWrite_errorStays (h : s.Canonical i) (off : Nat) (v : Byte) :
    ErrorStays i s (gpuWrite i off v s) := by
  unfold gpuWrite
  split
  case h_1 =>
    rw [writeMode_eq]
    obtain ⟨-, -, hpass⟩ := h.storeAndPass_outcome (.inl rfl) v v (s.devByte i regRes)
    exact hpass.errorStays
  case h_2 =>
    rw [writeRes_eq]
    obtain ⟨-, -, hpass⟩ := h.storeAndPass_outcome (.inr rfl) v (s.devByte i regMode) v
    exact hpass.errorStays
  case h_3 => exact s.setDevByte_errorStays i (off := regOptions) (by decide) v
  case h_18 | h_19 => exact s.setDevByte_errorStays i (by decide) v
  case h_20 =>
    obtain ⟨-, -, hkept, -⟩ := h.blitWrite_portAdvanced v
    exact hkept.errorStays (by simp)
  case h_21 => exact h.dispatchWith_errorStays Config.handler v
  case h_23 => exact s.setDevByte_errorStays i (by assumption) v
  all_goals exact .of_devs_eq rfl

/-- A read at a device stores at most the blit port's address (45_blit.md R345). -/
theorem devRead_bytesKept (k : DeviceKind) (i off : Nat) (dbg : Bool) (s : State) :
    BytesKept s (devRead k i off dbg s).2 fun j o => j = i ∧ (o = 0x14 ∨ o = 0x15) := by
  cases dbg
  case true => exact BytesKept.refl s _
  case false =>
    cases k
    case gpu =>
      change BytesKept s (gpuRead i off s).2 _
      unfold gpuRead
      split
      case h_13 => exact State.setDevWord_bytesKept _ i regBlitAddr _
      all_goals exact BytesKept.refl s _
    all_goals exact BytesKept.refl s _

theorem devRead_errorStays (k : DeviceKind) (i off : Nat) (dbg : Bool) (s : State) (j : Nat) :
    ErrorStays j s (devRead k i off dbg s).2 :=
  (devRead_bytesKept k i off dbg s).errorStays (by simp)

end accesses

section transactions

variable {s : State} {j : Nat}

/-- A normal write at any device leaves the error of the GPU at `j`. -/
theorem State.Inv.devWrite_errorStays (h : s.Inv) {i : Nat} {d : Device} (hd : s.devs[i]? = some d)
    (hgpu : ∃ g, s.devs[j]? = some g ∧ g.kind = .gpu) (off : Nat) (v : Byte) :
    ErrorStays j s (Machine.devWrite d.kind i off v false s) := by
  by_cases hj : j = i
  · subst hj
    obtain ⟨g, hg, hk⟩ := hgpu
    obtain rfl : d = g := Option.some.inj (hd.symm.trans hg)
    rw [hk]
    exact (h.canonical hd).gpuWrite_errorStays off v
  · exact .of_getElem? ((devWrite_reaches d.kind i off v false s).others j hj)

theorem InvGpu.busWrite_errorStays (h : InvGpu j s) (a : Word) (v : Byte) :
    ErrorStays j s (busWrite a v false s) := by
  obtain ⟨hinv, hgpu⟩ := h
  rcases busWrite_cases a v false s with ⟨-, e⟩ | ⟨i, d, -, ⟨hd, -⟩, e⟩ <;> rw [e]
  · exact ErrorStays.refl j s
  · exact hinv.devWrite_errorStays hd hgpu _ v

theorem busRead_errorStays (a : Word) (dbg : Bool) (s : State) (j : Nat) : ErrorStays j s (busRead a dbg s).2 := by
  rcases busRead_cases a dbg s with ⟨-, e⟩ | ⟨i, d, -, -, e⟩ <;> rw [e]
  · exact ErrorStays.refl j s
  · exact devRead_errorStays d.kind i _ dbg s j

theorem AtomicStep.run_invGpu (a : AtomicStep) (k : Byte) (h : InvGpu j s) : InvGpu j (a.run k s).2 := by
  obtain ⟨hinv, g, hg, hk⟩ := h
  obtain ⟨e, he, hek, -⟩ := (a.run_sameDevices k s).getElem? hg
  exact ⟨a.run_inv k s hinv, e, he, hek.trans hk⟩

/-- An atomic step of a normal operation leaves an error: none of its writes is a debug write. -/
theorem AtomicStep.run_errorStays {u : State} {i : Instr} (hi : IsNormal i = true) (h : InvGpu j u) {a : AtomicStep}
    (ha : s.MayTake i a) (k : Byte) : ErrorStays j u (a.run k u).2 := by
  cases a with
  | read a dbg => exact busRead_errorStays a dbg u j
  | readHigh a dbg => exact busRead_errorStays a dbg u j
  | readLow a dbg => exact busRead_errorStays a dbg u j
  | write a v dbg =>
    cases dbg
    case true => exact absurd (hi.symm.trans ha) (by decide)
    case false => exact h.busWrite_errorStays a v
  | callback c d n =>
    obtain ⟨-, hdevs, -⟩ := c.run_keeps d n u
    exact .of_devs_eq hdevs
  | close c =>
    obtain ⟨-, hdevs, -⟩ := c.run_keeps u
    exact .of_devs_eq hdevs

theorem RunsTo.errorStays {t : State} {i : Instr} (h : RunsTo (s.MayTake i) s t) (hi : IsNormal i = true)
    (hs : InvGpu j s) : ErrorStays j s t := by
  refine (h.induction (p := fun u => InvGpu j u ∧ ErrorStays j s u) ⟨hs, ErrorStays.refl j s⟩ ?_).2
  rintro a k u ha ⟨hu, hstays⟩
  exact ⟨a.run_invGpu k hu, hstays.trans (AtomicStep.run_errorStays hi hu ha k)⟩

/-- ATTACH appends a device and leaves those that are there. -/
theorem State.appendDevice_errorStays (hgpu : ∃ g, s.devs[j]? = some g ∧ g.kind = .gpu) (k : DeviceKind) (n : Nat) :
    ErrorStays j s (s.appendDevice k n) := by
  obtain ⟨g, hg, -⟩ := hgpu
  obtain ⟨hlt, -⟩ := List.getElem?_eq_some_iff.mp hg
  exact .of_getElem? (List.getElem?_append_left hlt)

/-- A normal operation other than INIT leaves an error. -/
theorem Effect.errorStays {t : State} {i : Instr} (h : Effect i s t) (hi : IsNormal i = true) (hinit : i ≠ .init)
    (hs : InvGpu j s) : ErrorStays j s t := by
  have ⟨hinv, hgpu⟩ := hs
  cases h with
  | run h => exact h.errorStays hi hs
  | read d off dbg => exact devRead_errorStays d.kind s.target off dbg s j
  | write d off v dbg hd ho hdbg =>
    cases dbg
    case true => exact absurd (hi.symm.trans (hdbg rfl)) (by decide)
    case false => exact hinv.devWrite_errorStays hd hgpu off v
  | attach size => exact s.appendDevice_errorStays hgpu _ size
  | overflow => exact .of_devs_eq rfl
  | init hi => exact absurd hi hinit
  | shutdown => exact .of_devs_eq rfl

end transactions

/-- Settles O38, from what each form of an operation leaves of the register. -/
theorem errorIsSticky : Obligations.ErrorIsSticky := fun _ _ _ _ d hinv hi hinit hexec hd hk =>
  (exec_effect hexec).errorStays hi hinit ⟨hinv, d, hd, hk⟩

end Sys2Proof.Machine
end

section
/-! PROOFS. The states in which the block takes a step, and where a step leads: a step is of the operation whose turn
it is, it is admitted, and it goes forward in the lifecycle (70_reset_and_hazards.md R441, R446 to R449;
60_exceptions.md R401; 40_bus.md R180). -/

namespace Sys2Proof.Machine

/-! ## Admission -/

/-- A step that a request takes is admitted. -/
theorem step_request_admits {s t : State} {r : Request} {rest : List Entry} {i : Instr}
    (hnext : s.nextEntries = .request r :: rest) (hd : s.decodeRequest r = .ok i) (h : step s = .next t) :
    s.Admits i := by
  cases hdiv : (s.latch r rest).divided r i with
  | none =>
    rw [step_of_whole hnext hd hdiv] at h
    have hadm : (s.latch r rest).Admits i := exec_admits h
    exact hadm
  | some o =>
    rw [step_of_divided hnext hd hdiv] at h
    obtain ⟨hf, hrow, -⟩ := State.admit_eq_next.mp h
    exact (s.admits_iff i).mpr ⟨hf, hrow⟩

/-- A step that an operation in progress takes is one in which it goes on. -/
theorem step_resume_goesOn {s t : State} {o : Ongoing} {rest : List Entry}
    (hnext : s.nextEntries = .resume o :: rest) (h : step s = .next t) : s.GoesOn o.op := by
  rw [step_of_resume hnext] at h
  obtain ⟨hf, hrow, -⟩ := State.admit_eq_next.mp h
  exact (s.goesOn_iff o.op).mpr ⟨hf, hrow⟩

/-- Every step of the block is taken in a state without a fatal error (60_exceptions.md R401). -/
theorem step_fault_none {s t : State} (h : step s = .next t) : s.fault = none := by
  rcases step_cases h with ⟨r, rest, i, -, -, he⟩ | ⟨r, rest, i, o, -, -, -, ⟨hf, -⟩, -⟩ | ⟨o, rest, -, ⟨hf, -⟩, -⟩
  · exact (exec_admits he).1
  · exact hf
  · exact hf

/-- Settles O54: each form of a step tests its own row, and every row demands that `fault` is absent. The plain name is
the model's table. -/
theorem admission_obligation : Obligations.Admission := by
  refine ⟨fun i s t => exec_admits, ?_, ?_, ?_⟩
  · exact fun s t r rest i hin hd hfree => step_request_admits (State.nextEntries_free hin hd hfree) hd
  · exact fun s t o rest hin => step_resume_goesOn (State.nextEntries_resume hin)
  · exact fun s r hf => ⟨exec_ne_next_of_fault hf, fun t h => by simp [step_fault_none h] at hf⟩

/-! ## Whose step it is -/

/-- A request that takes the next step asks for the next operation. -/
theorem State.nextIs_of_request {s : State} {r : Request} {rest : List Entry} {i : Instr}
    (hnext : s.nextEntries = .request r :: rest) (hd : s.decodeRequest r = .ok i) : s.NextIs i := by
  obtain ⟨hin, hfree⟩ := State.nextEntries_request hnext
  exact .inl ⟨r, rest, hin, hd, hfree i hd⟩

/-- An operation in progress that takes the next step is at the head of the inbox, or it is the first one that goes
before the request there (log 23). -/
theorem State.nextIs_of_resume {s : State} {o : Ongoing} {rest : List Entry}
    (hnext : s.nextEntries = .resume o :: rest) : s.NextIs o.op := by
  unfold State.nextEntries at hnext
  split at hnext
  · next r entries hin =>
    split at hnext
    · next j hd =>
      split at hnext
      · next p hholder =>
        obtain ⟨rfl, -⟩ : p.1 = o ∧ _ := by simpa using hnext
        obtain ⟨pre, post, rfl, -, hup, hpre⟩ := State.holder_eq_some hholder
        refine .inr (.inr ⟨r, pre, p.1, post, j, hin, hd, (s.goesBefore_iff _ j).mpr hup, fun x hx hb => ?_, rfl⟩)
        exact Bool.eq_false_iff.mp (hpre x hx) ((s.goesBefore_iff x j).mp hb)
      · cases hnext
    · cases hnext
  · exact .inr (.inl ⟨o, rest, hnext, rfl⟩)

/-! ## The lifecycle -/

/-- In CONSTRUCT an operation is an ATTACH, which changes neither the phase nor the flag, or INIT. -/
theorem exec_construct_goesForward {i : Instr} {s t : State} (h : exec i s = .next t) (hs : s.phase = .construct) :
    GoesForward i s t := by
  rcases exec_construct_cases h hs with ⟨size, rfl⟩ | rfl
  · obtain ⟨-, -, e⟩ := State.admit_eq_next.mp h
    split_ifs at e <;> cases e <;> exact .of_same rfl rfl
  · obtain ⟨-, -, e⟩ := State.admit_eq_next.mp h
    split_ifs at e
    cases e
    have hrunning : (s.fanOut onInit).running = s.running :=
      State.fanOut_induction (p := fun u => u.running = s.running)
        (fun k j u hu => (onInit_reaches k j u).running.trans hu) s rfl
    exact ⟨.inr (.inl ⟨hs, rfl, rfl⟩), .inl hrunning⟩

/-- Every operation goes forward. -/
theorem exec_goesForward {i : Instr} {s t : State} (h : exec i s = .next t) : GoesForward i s t := by
  by_cases hs : s.phase = .construct
  · exact exec_construct_goesForward h hs
  · exact (exec_onward h hs).forward

/-- Putting back what is left of an operation changes the inbox alone. -/
theorem putBack_eq (s : State) (n : Nat) (o : Ongoing) : ∃ q, PutBack s n o = { s with inbox := q } := by
  unfold PutBack
  split_ifs
  · exact ⟨_, rfl⟩
  · exact ⟨s.inbox, rfl⟩

/-- The next step of an operation in progress goes forward. -/
theorem State.advance_goesForward {s : State} {o : Ongoing} (hsteps : ∀ a ∈ o.steps, ClosesAs o.op a)
    (hs : s.Underway o.op) : GoesForward o.op s (s.advance o) := by
  cases hsplit : o.split with
  | nil =>
    rw [State.advance_nil hsplit]
    exact (runSteps_onward hsteps hs o.held).forward
  | cons n gaps =>
    cases hcons : o.steps with
    | nil =>
      rw [State.advance_done hcons]
      exact .of_same rfl rfl
    | cons a rest =>
      have hstep := (AtomicStep.run_onward (hsteps a (by simp [hcons])) hs o.held).forward
      rw [State.advance_cons hsplit hcons]
      obtain ⟨q, hq⟩ := putBack_eq (a.run o.held s).2 n
        { op := o.op, steps := rest, held := (a.run o.held s).1, beside := o.beside, split := gaps }
      exact hq ▸ hstep

/-- What the next step of an operation in progress, be it its first one, has to do with the state before: it is next,
its steps are the last of those that it has, and it is admitted. -/
structure State.Takes (s u : State) (o : Ongoing) : Prop where
  next : s.NextIs o.op
  goesOn : u.GoesOn o.op
  proper : o.steps ≠ [] → u.Proper o

/-- A step of the block runs the next operation whole, or takes atomic steps of it. -/
theorem step_next_cases {s t : State} (hs : s.InboxInv) (h : step s = .next t) :
    (∃ r rest i, s.NextIs i ∧ exec i (s.latch r rest) = .next t) ∨
    (∃ r rest o, s.Takes (s.latch r rest) o ∧ t = (s.latch r rest).advance o) ∨
    (∃ o rest, s.Takes (s.relatch o rest) o ∧ t = (s.relatch o rest).advance o) := by
  rcases step_cases h with ⟨r, rest, i, hnext, hd, he⟩ | ⟨r, rest, i, o, hnext, hd, ho, hadm, rfl⟩ |
    ⟨o, rest, hnext, hgo, rfl⟩
  · exact .inl ⟨r, rest, i, State.nextIs_of_request hnext hd, he⟩
  · obtain ⟨n, gaps, steps, -, hsteps, rfl⟩ := State.divided_eq_some.mp ho
    have hc : (s.latch r rest).phase ≠ .construct := hadm.phase_of_divided hsteps
    refine .inr (.inl ⟨r, rest, _, ⟨State.nextIs_of_request hnext hd, hadm.goesOn hc, fun hne => ?_⟩, rfl⟩)
    exact ⟨hc, hne, s.envDirty, steps, hsteps, List.suffix_refl steps⟩
  · have hmem : Entry.resume o ∈ s.inbox := s.nextEntries_perm.subset (hnext ▸ List.mem_cons_self)
    have hproper := hs.proper_of_mem hmem
    exact .inr (.inr ⟨o, rest, ⟨State.nextIs_of_resume hnext, hgo, fun _ => hproper.congr rfl hproper.1⟩, rfl⟩)

theorem State.Takes.goesForward {s u : State} {o : Ongoing} (h : s.Takes u o) : GoesForward o.op u (u.advance o) := by
  refine State.advance_goesForward (fun a ha => ?_) h.goesOn.underway
  exact (h.proper (List.ne_nil_of_mem ha)).closesAs a ha

/-- Settles O55: taking an entry changes neither the phase nor the flag, and what is then run goes forward. -/
theorem lifecycleGoesForward : Obligations.LifecycleGoesForward := by
  refine ⟨fun i s t => exec_goesForward, fun s t hs h => ?_⟩
  rcases step_next_cases hs h with ⟨r, rest, i, hnext, he⟩ | ⟨r, rest, o, ho, rfl⟩ | ⟨o, rest, ho, rfl⟩
  · exact ⟨i, hnext, exec_goesForward (s := s.latch r rest) he⟩
  · exact ⟨o.op, ho.next, ho.goesForward⟩
  · exact ⟨o.op, ho.next, ho.goesForward⟩

/-! ## Reset -/

/-- Settles O60: the fields are those of the reset state, which has no device and an empty inbox. -/
theorem resetIsConstruction : Obligations.ResetIsConstruction := by
  have hext : State.reset.gpu.ext = Memory.ofCells 65536 State.reset.cfg.extInit := rfl
  refine ⟨rfl, rfl, rfl, rfl, rfl, rfl, rfl, rfl, rfl, rfl, hext, ?inv, fun hphase => absurd rfl hphase, ?inbox⟩
  case inv =>
    exact ⟨rfl, by decide, fun d hd => absurd hd List.not_mem_nil, Memory.wf_ofCells _ _, Memory.below_ofCells _ _⟩
  case inbox => exact .of_requests fun o => List.not_mem_nil

end Sys2Proof.Machine
end

section
/-! PROOFS. What raises a fatal error: an ATTACH beyond 64K, or the GPU's OnActivate where the host's creation fails,
which ACTIVATE and a dirty UPDATE alone call (60_exceptions.md R401, R402). -/

namespace Sys2Proof.Machine

/-! ## One atomic step -/

theorem Reaches.beside {i : Nat} {s t : State} (h : Reaches i s t) : t.beside = s.beside := by rw [← h.rest]

/-- An atomic step leaves what travels beside the word. -/
theorem AtomicStep.run_beside (a : AtomicStep) (h : Byte) (s : State) : (a.run h s).2.beside = s.beside := by
  cases a with
  | read a dbg => exact (busRead_reaches a dbg s).elim fun _ r => r.beside
  | readHigh a dbg => exact (busRead_reaches a dbg s).elim fun _ r => r.beside
  | readLow a dbg => exact (busRead_reaches a dbg s).elim fun _ r => r.beside
  | write a v dbg => exact (busWrite_reaches a v dbg s).elim fun _ r => r.beside
  | callback c k i => rcases c.run_cases k i s with e | e | e <;> exact (congrArg State.beside e :)
  | close c =>
    cases c with
    | enterRun =>
      simp only [AtomicStep.run, Closing.run, State.enterRun]
      split_ifs <;> rfl
    | clearDirty => rfl
    | finish => rfl
    | interval n => rfl

/-- The GPU's OnActivate raises a fatal error where the host fails to create a surface; no other callback raises one. -/
theorem Callback.run_fault {c : Callback} {k : DeviceKind} {j : Nat} {s : State} {r : FatalReason}
    (hs : s.fault = none) (hr : (c.run k j s).fault = some r) :
    r = .surfaceFailure ∧ ¬ s.SurfacesCreated ∧ c = .activate ∧ k = .gpu := by
  by_cases hact : c = .activate ∧ k = .gpu
  · obtain ⟨rfl, rfl⟩ := hact
    obtain ⟨hok, hfail⟩ := onActivate_gpu j s
    have hcreated : ¬ s.SurfacesCreated := by
      intro hc
      rw [Callback.run, hok hc, hs] at hr
      cases hr
    rw [Callback.run, hfail hcreated] at hr
    exact ⟨(Option.some.inj hr).symm, hcreated, rfl, rfl⟩
  · exfalso
    by_cases hrender : c = .render
    · subst hrender
      have hkept : (onRender k j s).fault = s.fault := by cases k <;> rfl
      rw [Callback.run, hkept, hs] at hr
      cases hr
    · rw [Callback.run_eq_self fun hk => ⟨fun hc => hact ⟨hc, hk⟩, hrender⟩, hs] at hr
      cases hr

/-- No bus transaction raises a fatal error, nor does a closing assignment. -/
theorem AtomicStep.run_fault {a : AtomicStep} {h : Byte} {s : State} {r : FatalReason} (hs : s.fault = none)
    (hr : (a.run h s).2.fault = some r) :
    r = .surfaceFailure ∧ ¬ s.SurfacesCreated ∧ ∃ j, a = .callback .activate .gpu j := by
  have quiet {t : State} (hkept : t.fault = s.fault) : t.fault ≠ some r := by simp [hkept, hs]
  cases a with
  | read a dbg => exact absurd hr (quiet (busRead_fault a dbg s))
  | readHigh a dbg => exact absurd hr (quiet (busRead_fault a dbg s))
  | readLow a dbg => exact absurd hr (quiet (busRead_fault a dbg s))
  | write a v dbg => exact absurd hr (quiet (busWrite_fault a v dbg s))
  | callback c k j =>
    obtain ⟨rfl, hcreated, rfl, rfl⟩ := Callback.run_fault hs hr
    exact ⟨rfl, hcreated, j, rfl⟩
  | close c =>
    obtain ⟨-, -, -, -, hkept⟩ := c.run_keeps s
    exact absurd hr (quiet hkept)

/-! ## The atomic steps of an operation -/

theorem State.SurfacesCreated.congr {s t : State} (h : s.SurfacesCreated) (hb : t.beside = s.beside) :
    t.SurfacesCreated := by
  rw [State.SurfacesCreated, hb]
  exact h

/-- A run of atomic steps that raises a fatal error calls the GPU's OnActivate, with a host that fails. -/
theorem runSteps_fault {steps : List AtomicStep} {h : Byte} {s : State} {r : FatalReason} (hs : s.fault = none)
    (hr : (runSteps steps h s).fault = some r) :
    r = .surfaceFailure ∧ ¬ s.SurfacesCreated ∧ ∃ j, .callback .activate .gpu j ∈ steps := by
  induction steps generalizing h s with
  | nil => simp [hs] at hr
  | cons a rest ih =>
    rw [runSteps_cons] at hr
    cases hf : (a.run h s).2.fault with
    | some q =>
      rw [State.unlessFatal_some hf] at hr
      obtain ⟨rfl, hcreated, j, rfl⟩ := AtomicStep.run_fault hs hr
      exact ⟨rfl, hcreated, j, List.mem_cons_self⟩
    | none =>
      rw [State.unlessFatal_none hf] at hr
      obtain ⟨rfl, hcreated, j, hj⟩ := ih hf hr
      exact ⟨rfl, fun hc => hcreated (hc.congr (a.run_beside h s)), j, List.mem_cons_of_mem a hj⟩

theorem runSteps_beside (steps : List AtomicStep) (h : Byte) (s : State) : (runSteps steps h s).beside = s.beside :=
  runSteps_induction (p := fun u => u.beside = s.beside) (fun a k u hu => (a.run_beside k u).trans hu) steps h s rfl

/-- So does the next step of an operation in progress. -/
theorem State.advance_fault {s : State} {o : Ongoing} {r : FatalReason} (hs : s.fault = none)
    (hr : (s.advance o).fault = some r) :
    r = .surfaceFailure ∧ ¬ s.SurfacesCreated ∧ ∃ j, .callback .activate .gpu j ∈ o.steps := by
  cases hsplit : o.split with
  | nil =>
    rw [State.advance_nil hsplit] at hr
    exact runSteps_fault hs hr
  | cons n gaps =>
    cases hsteps : o.steps with
    | nil => simp [State.advance_done hsteps, hs] at hr
    | cons a rest =>
      rw [State.advance_cons hsplit hsteps] at hr
      obtain ⟨q, hq⟩ := putBack_eq (a.run o.held s).2 n
        { op := o.op, steps := rest, held := (a.run o.held s).1, beside := o.beside, split := gaps }
      rw [hq] at hr
      obtain ⟨rfl, hcreated, j, rfl⟩ := AtomicStep.run_fault (a := a) hs hr
      exact ⟨rfl, hcreated, j, List.mem_cons_self⟩

theorem State.advance_beside (s : State) (o : Ongoing) : (s.advance o).beside = s.beside :=
  State.advance_induction (p := fun u => u.beside = s.beside) (fun a k u hu => (a.run_beside k u).trans hu)
    (fun _ _ hu => hu) s o rfl

/-- A fan-out calls its own callback, of each device. -/
theorem State.mem_fanSteps {s : State} {c : Callback} {a : AtomicStep} :
    a ∈ s.fanSteps c ↔ ∃ d j, s.devs[j]? = some d ∧ a = .callback c d.kind j := by
  simp only [State.fanSteps, List.mem_map, List.mem_zipIdx_iff_getElem?, List.getElem?_map, Option.map_eq_some_iff,
    Prod.exists]
  constructor
  · rintro ⟨k, j, ⟨d, hd, rfl⟩, rfl⟩
    exact ⟨d, j, hd, rfl⟩
  · rintro ⟨d, j, hd, rfl⟩
    exact ⟨d.kind, j, ⟨d, hd, rfl⟩, rfl⟩

/-- The GPU's OnActivate is called of an attached GPU, by the Activate fan-out alone. -/
theorem State.gpu_of_mem_fanSteps {s : State} {c : Callback} {j : Nat}
    (h : .callback .activate .gpu j ∈ s.fanSteps c) : c = .activate ∧ ∃ d ∈ s.devs, d.kind = .gpu := by
  obtain ⟨d, i, hd, e⟩ := State.mem_fanSteps.mp h
  obtain ⟨hc, hk, -⟩ := AtomicStep.callback.inj e
  exact ⟨hc.symm, d, List.mem_of_getElem? hd, hk.symm⟩

/-- ACTIVATE, and UPDATE where the environment is dirty, are the operations that call the GPU's OnActivate
(40_bus.md R172, R173). -/
theorem State.activates_of_mem {s : State} {i : Instr} {steps : List AtomicStep} {j : Nat}
    (hsteps : s.atomicSteps i = some steps) (h : .callback .activate .gpu j ∈ steps) :
    (i = .activate ∨ (s.envDirty = true ∧ ∃ dt, i = .update dt)) ∧ ∃ d ∈ s.devs, d.kind = .gpu := by
  cases i
  case activate =>
    cases hsteps
    obtain ⟨-, hgpu⟩ := State.gpu_of_mem_fanSteps (by simpa using h)
    exact ⟨.inl rfl, hgpu⟩
  case update dt =>
    cases hsteps
    have hrebuild : .callback .activate .gpu j ∈ s.rebuildSteps := by
      refine (List.mem_append.mp h).resolve_right fun hfan => ?_
      obtain ⟨e, -⟩ := State.gpu_of_mem_fanSteps hfan
      cases e
    unfold State.rebuildSteps at hrebuild
    split_ifs at hrebuild with hdirty
    · have hfan : .callback .activate .gpu j ∈ s.fanSteps .deactivate ∨
          .callback .activate .gpu j ∈ s.fanSteps .activate := by simpa using hrebuild
      have hgpu := hfan.elim (fun hf => (State.gpu_of_mem_fanSteps hf).2) fun hf => (State.gpu_of_mem_fanSteps hf).2
      exact ⟨.inr ⟨hdirty, dt, rfl⟩, hgpu⟩
    · exact absurd hrebuild List.not_mem_nil
  case quit =>
    cases hsteps
    obtain ⟨e, -⟩ := State.gpu_of_mem_fanSteps (c := .quit) (by simpa using h)
    cases e
  case deactivate | event | render =>
    cases hsteps
    obtain ⟨e, -⟩ := State.gpu_of_mem_fanSteps h
    cases e
  case rdw | rdwD => cases hsteps; simp [readSteps] at h
  case wrw | wrwD => cases hsteps; simp [writeSteps] at h
  case load => cases hsteps; simp at h
  case tick =>
    cases hsteps
    have hcpu : ∃ c ∈ s.beside.cpu, .callback .activate .gpu j ∈ CpuTransaction.steps c := by simpa using h
    obtain ⟨c, -, hc⟩ := hcpu
    cases c <;> simp [CpuTransaction.steps, readSteps, writeSteps] at hc
  all_goals cases hsteps

/-! ## A whole operation -/

/-- What an operation that sets `fault` is, and what it leaves. -/
theorem exec_fault {i : Instr} {s t : State} {r : FatalReason} (h : exec i s = .next t) (hr : t.fault = some r) :
    (r = .attachOverflow ∧ t = s.raise .attachOverflow ∧
      ∃ size, i = .attach size ∧ busSize < s.nextFree + s.attachSize size) ∨
    (r = .surfaceFailure ∧ t.beside = s.beside ∧
      (i = .activate ∨ (s.envDirty = true ∧ ∃ dt, i = .update dt)) ∧ ¬ s.SurfacesCreated ∧
      ∃ d ∈ s.devs, d.kind = .gpu) := by
  have hadm := exec_admits h
  have hs : s.fault = none := hadm.1
  have quiet (hkept : t.fault = s.fault) : False := by simp [hkept, hs] at hr
  by_cases hdiv : IsDivided i
  · obtain ⟨steps, hsteps⟩ := Option.ne_none_iff_exists'.mp fun e => (s.atomicSteps_eq_none_iff i).mp e hdiv
    rw [exec_eq_runSteps hadm hsteps 0] at h
    cases h
    obtain ⟨rfl, hcreated, j, hj⟩ := runSteps_fault hs hr
    obtain ⟨hi, hgpu⟩ := State.activates_of_mem hsteps hj
    exact .inr ⟨rfl, runSteps_beside steps 0 s, hi, hcreated, hgpu⟩
  · by_cases haccess : ¬ IsHostOperation i ∧ i ≠ .shutdown
    · obtain ⟨-, j, hreach⟩ := exec_access_reaches hdiv haccess.1 haccess.2 h
      exact (quiet hreach.fault).elim
    · cases i <;> dsimp only [exec] at h
      case attach size =>
        obtain ⟨-, -, e⟩ := State.admit_eq_next.mp h
        split_ifs at e with hover
        · cases e
          exact .inl ⟨(Option.some.inj hr).symm, rfl, size, rfl, hover⟩
        · cases e
          exact (quiet rfl).elim
      case init =>
        obtain ⟨-, -, e⟩ := State.admit_eq_next.mp h
        split_ifs at e
        cases e
        have hkept : (s.fanOut onInit).fault = s.fault :=
          State.fanOut_induction (p := fun u => u.fault = s.fault)
            (fun k j u hu => (onInit_reaches k j u).fault.trans hu) s rfl
        exact (quiet hkept).elim
      case shutdown =>
        obtain ⟨-, -, e⟩ := State.admit_eq_next.mp h
        cases e
        exact (quiet rfl).elim
      case rdw | wrw | rdwD | wrwD | quit | activate | deactivate | event | update | render | tick | load =>
        exact absurd trivial hdiv
      all_goals exact absurd ⟨fun h => h, fun h => Instr.noConfusion h⟩ haccess

/-- An ATTACH beyond 64K sets its reason (40_bus.md R162). -/
theorem exec_attach_fault {s t : State} {size : BitVec 17} (h : exec (.attach size) s = .next t)
    (hover : busSize < s.nextFree + s.attachSize size) : t.fault = some .attachOverflow := by
  obtain ⟨hf, hp⟩ := exec_admits h
  rw [exec_attach_overflows hf hp hover] at h
  cases h
  rfl

/-- An ACTIVATE or a dirty UPDATE whose host creation fails sets its reason (44_gpu_render.md R332). -/
theorem exec_surface_fault {i : Instr} {s t : State} (h : exec i s = .next t)
    (hi : i = .activate ∨ (s.envDirty = true ∧ ∃ dt, i = .update dt)) (hcreated : ¬ s.SurfacesCreated)
    (hgpu : ∃ d ∈ s.devs, d.kind = .gpu) : t.fault = some .surfaceFailure := by
  have hadm := exec_admits h
  rcases hi with rfl | ⟨hdirty, dt, rfl⟩
  · obtain ⟨-, hfail⟩ := activate s hadm
    rw [hfail hcreated hgpu] at h
    cases h
    rfl
  · obtain ⟨-, -, hfail⟩ := updateDirtyGate s dt hadm
    rw [hfail hdirty hcreated hgpu] at h
    cases h
    rfl

/-! ## The statement -/

/-- What the next step of an operation in progress that sets `fault` is of, and what it leaves. -/
theorem State.Takes.fault {s u : State} {o : Ongoing} {r : FatalReason} (h : s.Takes u o)
    (hr : (u.advance o).fault = some r) :
    r = .surfaceFailure ∧ (o.op = .activate ∨ ∃ dt, o.op = .update dt) ∧ ¬ (u.advance o).SurfacesCreated ∧
      ∃ d ∈ u.devs, d.kind = .gpu := by
  obtain ⟨rfl, hcreated, j, hj⟩ := State.advance_fault h.goesOn.1 hr
  obtain ⟨-, -, dirty, steps, hsteps, hsuffix⟩ := h.proper (List.ne_nil_of_mem hj)
  obtain ⟨hop, hgpu⟩ := State.activates_of_mem hsteps (hsuffix.subset hj)
  exact ⟨rfl, hop.imp id fun hupdate => hupdate.2, fun hc => hcreated (hc.congr (u.advance_beside o).symm), hgpu⟩

/-- Settles O53: the causes of a whole operation by `exec_fault` and its two converses, those of an atomic step by
`State.Takes.fault`. -/
theorem fatalCauses : Obligations.FatalCauses := by
  refine ⟨fun i s t h => ⟨⟨fun hr => ?_, ?_⟩, ⟨fun hr => ?_, ?_⟩, fun hr => ?_⟩, fun s t r hs h hr => ?_⟩
  · rcases exec_fault h hr with ⟨-, -, hover⟩ | ⟨e, -⟩
    · exact hover
    · cases e
  · rintro ⟨size, rfl, hover⟩
    exact exec_attach_fault h hover
  · rcases exec_fault h hr with ⟨e, -⟩ | ⟨-, -, hfail⟩
    · cases e
    · exact hfail
  · rintro ⟨hi, hcreated, hgpu⟩
    exact exec_surface_fault h hi hcreated hgpu
  · rcases exec_fault h hr with ⟨-, rfl, -⟩ | ⟨e, -⟩
    · rfl
    · cases e
  · refine ⟨step_fault_none h, ?_⟩
    rcases step_next_cases hs h with ⟨q, rest, i, hnext, he⟩ | ⟨q, rest, o, ho, rfl⟩ | ⟨o, rest, ho, rfl⟩
    · rcases exec_fault he hr with ⟨rfl, rfl, hover⟩ | ⟨rfl, hb, hi, hcreated, hgpu⟩
      · exact ⟨i, hnext, .inl ⟨rfl, rfl, hover⟩⟩
      · exact ⟨i, hnext, .inr ⟨rfl, hi.imp id fun hupdate => hupdate.2, fun hc => hcreated (hc.congr hb.symm), hgpu⟩⟩
    · exact ⟨o.op, ho.next, .inr (ho.fault hr)⟩
    · exact ⟨o.op, ho.next, .inr (ho.fault hr)⟩

end Sys2Proof.Machine
end

section
/-! PROOFS. ROM is write-protected: a normal transaction leaves every ROM device as it is (41_device.md R207;
70_reset_and_hazards.md R456). -/

namespace Sys2Proof.Machine

section rom

variable {s : State} {j : Nat} {d : Device} (hd : s.devs[j]? = some d) (hrom : d.kind = .rom)
include hd hrom

/-- A normal write at any device's port leaves a ROM device: it ignores its own, and no other reaches it. -/
theorem devWrite_keeps_rom {i : Nat} {e : Device} (he : s.devs[i]? = some e) (off : Nat) (v : Byte) :
    (devWrite e.kind i off v false s).devs[j]? = some d := by
  by_cases hij : j = i
  · subst hij
    obtain rfl : e = d := Option.some.inj (he.symm.trans hd)
    have hignored : devWrite e.kind j off v false s = s := by rw [hrom]; rfl
    rw [hignored, hd]
  · rw [(devWrite_reaches e.kind i off v false s).others j hij, hd]

/-- A read at any device's port, normal or debug, leaves a ROM device. -/
theorem devRead_keeps_rom {i : Nat} {e : Device} (he : s.devs[i]? = some e) (off : Nat) (dbg : Bool) :
    (devRead e.kind i off dbg s).2.devs[j]? = some d := by
  by_cases hij : j = i
  · subst hij
    obtain rfl : e = d := Option.some.inj (he.symm.trans hd)
    have hkept : (devRead e.kind j off dbg s).2 = s := by rw [hrom]; cases dbg <;> rfl
    rw [hkept, hd]
  · rw [(devRead_reaches e.kind i off dbg s).others j hij, hd]

theorem busWrite_keeps_rom (a : Word) (v : Byte) : (busWrite a v false s).devs[j]? = some d := by
  rcases busWrite_cases a v false s with ⟨-, h⟩ | ⟨i, e, -, ⟨he, -⟩, h⟩ <;> rw [h]
  · exact hd
  · exact devWrite_keeps_rom hd hrom he _ v

theorem busRead_keeps_rom (a : Word) (dbg : Bool) : (busRead a dbg s).2.devs[j]? = some d := by
  rcases busRead_cases a dbg s with ⟨-, h⟩ | ⟨i, e, -, ⟨he, -⟩, h⟩ <;> rw [h]
  · exact hd
  · exact devRead_keeps_rom hd hrom he _ dbg

/-- An atomic step of a normal operation leaves a ROM device: none of its writes is a debug write. -/
theorem AtomicStep.run_keeps_rom {u : State} {i : Instr} (hi : IsNormal i = true) {a : AtomicStep}
    (ha : u.MayTake i a) (k : Byte) : (a.run k s).2.devs[j]? = some d := by
  cases a with
  | read a dbg => exact busRead_keeps_rom hd hrom a dbg
  | readHigh a dbg => exact busRead_keeps_rom hd hrom a dbg
  | readLow a dbg => exact busRead_keeps_rom hd hrom a dbg
  | write a v dbg =>
    cases dbg
    case true => exact absurd (hi.symm.trans ha) (by decide)
    case false => exact busWrite_keeps_rom hd hrom a v
  | callback c e n =>
    obtain ⟨-, hdevs, -⟩ := c.run_keeps e n s
    exact hdevs ▸ hd
  | close c =>
    obtain ⟨-, hdevs, -⟩ := c.run_keeps s
    exact hdevs ▸ hd

/-- OnInit of every device leaves a ROM device: its own changes nothing, and no other reaches it. -/
theorem State.fanOut_onInit_keeps_rom : (s.fanOut onInit).devs[j]? = some d := by
  refine State.fanOut_induction_devices (p := fun u => u.devs[j]? = some d) s hd fun i e u he hu => ?_
  by_cases hij : j = i
  · subst hij
    obtain rfl : e = d := Option.some.inj (he.symm.trans hd)
    rw [onInit_of_ne_gpu e.kind j u (by simp [hrom]), hu]
  · rw [(onInit_reaches e.kind i u).others j hij, hu]

end rom

/-- Settles O14, from what each form of a normal operation leaves of the device. -/
theorem romIsWriteProtected : Obligations.RomIsWriteProtected := by
  intro i s t j d hi h hd hrom
  cases exec_effect h with
  | run h =>
    exact h.induction (p := fun u => u.devs[j]? = some d) hd fun a k u ha hu => AtomicStep.run_keeps_rom hu hrom hi ha k
  | read e off dbg he => exact devRead_keeps_rom hd hrom he off dbg
  | write e off v dbg he ho hdbg =>
    cases dbg
    case true => exact absurd (hi.symm.trans (hdbg rfl)) (by decide)
    case false => exact devWrite_keeps_rom hd hrom he off v
  | attach size => exact (List.getElem?_append_left (List.getElem?_eq_some_iff.mp hd).1).trans hd
  | overflow => exact hd
  | init => exact State.fanOut_onInit_keeps_rom hd hrom
  | shutdown => exact hd

end Sys2Proof.Machine
end

section
/-! PROOFS. The loader: LOAD changes backing bytes alone, and it is the debug writes of the data records of its text, in
order (47_boot_image.md R381 to R389). -/

namespace Sys2Proof.Machine

/-! ## LOAD -/

theorem exec_load {s : State} (hf : s.fault = none) (hp : s.phase = .ready) :
    exec .load s = .next (writeBytes s.textWrites s) := State.admit_open hf (by simp [hp]) _

theorem writeBytes_sameDevices (l : List (Word × Byte)) (s : State) : SameDevices s (writeBytes l s) := by
  induction l generalizing s with
  | nil => exact SameDevices.refl s
  | cons w rest ih => exact (busWrite_reaches w.1 w.2 true s).elim fun _ r => r.devices.trans (ih _)

/-- Settles O47: the loader's writes are debug writes, which change backing bytes alone. -/
theorem loadChangesOnlyBytes : Obligations.LoadChangesOnlyBytes := by
  intro s hf hp
  obtain ⟨hrest, -⟩ := writeBytes_debug s.textWrites s
  exact ⟨_, exec_load hf hp, hrest, writeBytes_sameDevices _ s, fun _ _ h => absurd trivial h⟩

/-! ## The forms of a text -/

/-- A line is a data record, an end-of-file record, or skipped (47_boot_image.md R382 to R384, R387). -/
theorem line_cases (line : List Byte) :
    (∃ a data, SpellsRecord line a 0x00 data) ∨ (∃ a data, SpellsRecord line a 0x01 data) ∨ SkippedLine line := by
  cases hr : parseRecord line with
  | none =>
    refine .inr (.inr fun a type data h => ?_)
    rw [h.parse] at hr
    cases hr
  | some r =>
    have hline := parseRecord_eq_some.mp hr
    by_cases hdata : r.type = 0x00
    · exact .inl ⟨r.addr, r.data, hdata ▸ hline⟩
    · by_cases hend : r.type = 0x01
      · exact .inr (.inl ⟨r.addr, r.data, hend ▸ hline⟩)
      · refine .inr (.inr fun a type data h => ?_)
        rw [h.parse, Option.some.injEq] at hr
        subst hr
        change type ≠ 0 at hdata
        change type ≠ 1 at hend
        bv_omega

/-- A text is one last line with no line end, or a line with its line end and more text. -/
theorem text_cases (text : List Byte) :
    0x0A ∉ text ∨ ∃ line part rest, EndedLine line part ∧ part ≠ [] ∧ text = part ++ rest := by
  by_cases hlf : 0x0A ∈ text
  · obtain ⟨front, rest, rfl, hfront⟩ := List.eq_append_cons_of_mem hlf
    refine .inr ?_
    by_cases hcr : front.getLast? = some 0x0D
    · obtain ⟨line, rfl⟩ := List.getLast?_eq_some_iff.mp hcr
      exact ⟨line, line ++ [0x0D, 0x0A], rest, ⟨fun h => hfront (List.mem_append_left _ h), .inr rfl⟩, by simp, by simp⟩
    · exact ⟨front, front ++ [0x0A], rest, ⟨hfront, .inl ⟨rfl, hcr⟩⟩, by simp, by simp⟩
  · exact .inl hlf

theorem SkippedText.nil : SkippedText [] := ⟨[], rfl, by simp⟩

theorem SkippedText.cons {line part text : List Byte} (he : EndedLine line part) (hs : SkippedLine line)
    (h : SkippedText text) : SkippedText (part ++ text) := by
  obtain ⟨parts, rfl, hparts⟩ := h
  exact ⟨part :: parts, rfl, List.forall_mem_cons.mpr ⟨⟨line, he, hs⟩, hparts⟩⟩

theorem WritesNothing.cons {line part text : List Byte} (he : EndedLine line part) (hs : SkippedLine line)
    (h : WritesNothing text) : WritesNothing (part ++ text) := by
  obtain ⟨skipped, last, rfl, hskipped, hlast⟩ := h
  exact ⟨part ++ skipped, last, (List.append_assoc ..).symm, hskipped.cons he hs, hlast⟩

theorem BeginsWithRecord.cons {line part text data rest : List Byte} {a : Word} (he : EndedLine line part)
    (hs : SkippedLine line) (h : BeginsWithRecord text a data rest) : BeginsWithRecord (part ++ text) a data rest := by
  obtain ⟨before, record, hbefore, hrecord, ⟨rfl, hrest⟩ | ⟨ended, hended, rfl⟩⟩ := h
  · exact ⟨part ++ before, record, hbefore.cons he hs, hrecord, .inl ⟨by simp, hrest⟩⟩
  · exact ⟨part ++ before, record, hbefore.cons he hs, hrecord, .inr ⟨ended, hended, by simp⟩⟩

/-- A text of one line with no line end. -/
theorem lastLine_forms {text : List Byte} (h : 0x0A ∉ text) :
    WritesNothing text ∨ ∃ a data rest, BeginsWithRecord text a data rest := by
  have nothing (hlast : ∀ a type data, SpellsRecord text a type data → 1 ≤ type.toNat) : WritesNothing text :=
    ⟨[], text, rfl, .nil, .inr ⟨h, hlast⟩⟩
  rcases line_cases text with ⟨a, data, hr⟩ | ⟨a, data, hr⟩ | hs
  · exact .inr ⟨a, data, [], [], text, .nil, hr, .inl ⟨rfl, rfl⟩⟩
  · refine .inl (nothing fun b type bytes hb => ?_)
    have heq := hr.parse.symm.trans hb.parse
    simp only [Option.some.injEq, Record.mk.injEq] at heq
    simp [← heq.2.1]
  · exact .inl (nothing fun b type bytes hb => Nat.le_of_succ_le (hs b type bytes hb))

/-- Every text has one of the two forms. -/
theorem text_forms (text : List Byte) : WritesNothing text ∨ ∃ a data rest, BeginsWithRecord text a data rest := by
  rcases text_cases text with hlast | ⟨line, part, more, he, hne, htext⟩
  · exact lastLine_forms hlast
  · subst htext
    rcases line_cases line with ⟨a, data, hr⟩ | ⟨a, data, hr⟩ | hs
    · exact .inr ⟨a, data, more, [], line, .nil, hr, .inr ⟨part, he, rfl⟩⟩
    · exact .inl ⟨[], _, rfl, .nil, .inl ⟨line, part, more, a, data, rfl, he, hr⟩⟩
    · have hshorter : more.length < (part ++ more).length := by
        have hpos : 0 < part.length := List.length_pos_iff.mpr hne
        rw [List.length_append]
        omega
      exact (text_forms more).imp (·.cons he hs) fun ⟨a, data, rest, h⟩ => ⟨a, data, rest, h.cons he hs⟩
termination_by text.length

/-! ## The effect of a record -/

/-- The byte writes of a record's data, at A, A + 1, … modulo 65536 (47_boot_image.md R382, R389). -/
def dataWrites (a : Word) (data : List Byte) : List (Word × Byte) :=
  data.zipIdx.map fun d => (a + BitVec.ofNat 16 d.2, d.1)

theorem State.textWrites_of_nothing {s : State} (h : WritesNothing s.beside.text) : s.textWrites = [] := h.loadWrites

theorem State.textWrites_of_record {s : State} {a : Word} {data rest : List Byte}
    (h : BeginsWithRecord s.beside.text a data rest) :
    s.textWrites = dataWrites a data ++ loadWrites (splitLines [] rest) := h.loadWrites

/-- The loader's writes leave the phase and `fault`. -/
theorem writeBytes_lifecycle (l : List (Word × Byte)) (s : State) :
    (writeBytes l s).fault = s.fault ∧ (writeBytes l s).phase = s.phase ∧ (writeBytes l s).beside = s.beside := by
  obtain ⟨h, -⟩ := writeBytes_debug l s
  exact ⟨(congrArg State.fault h :), (congrArg State.phase h :), (congrArg State.beside h :)⟩

/-- What travels beside the word during the writes does not matter. -/
theorem writeBytes_beside (l : List (Word × Byte)) (s : State) (b : Beside) :
    { writeBytes l { s with beside := b } with beside := s.beside } = writeBytes l s := by
  obtain ⟨-, hbeside⟩ := writeBytes_debug l s
  rw [hbeside b]
  exact (hbeside s.beside).symm

/-- LOAD is the debug writes of the first record's data and then LOAD of the text after it. -/
theorem exec_load_record {s : State} (hf : s.fault = none) (hp : s.phase = .ready) {a : Word} {data rest : List Byte}
    (h : BeginsWithRecord s.beside.text a data rest) :
    ∃ t u, run (data.zipIdx.map fun d => .wrD (a + BitVec.ofNat 16 d.2) d.1) s = .next t ∧
      exec .load { t with beside := { t.beside with text := rest } } = .next u ∧
      exec .load s = .next { u with beside := s.beside } := by
  obtain ⟨hf', hp', hb'⟩ := writeBytes_lifecycle (dataWrites a data) s
  have hrun := run_wrD (dataWrites a data) s ⟨hf, .inl hp⟩
  rw [dataWrites, List.map_map] at hrun
  refine ⟨writeBytes (dataWrites a data) s, _, hrun, exec_load (hf'.trans hf) (hp'.trans hp), ?_⟩
  rw [exec_load hf hp, State.textWrites_of_record h, writeBytes_append, ← hb']
  exact congrArg _ (writeBytes_beside ..).symm

/-! ## Reading back what a record wrote -/

theorem SameDevices.maps {s t : State} (h : SameDevices s t) {a : Word} {i : Nat} {d : Device} (hm : s.Maps a i d) :
    ∃ e, t.Maps a i e ∧ e.range = d.range := by
  obtain ⟨hd, hlo, hhi⟩ := hm
  obtain ⟨e, he, -, hr⟩ := h.getElem? hd
  exact ⟨e, ⟨he, by rw [hr]; exact hlo, by rw [hr]; exact hhi⟩, hr⟩

theorem SameDevices.unmapped_iff {s t : State} (h : SameDevices s t) (a : Word) : t.Unmapped a ↔ s.Unmapped a := by
  constructor
  · intro hu i d hm
    obtain ⟨e, he, -⟩ := h.maps hm
    exact hu i e he
  · intro hu i d hm
    obtain ⟨e, he, -⟩ := SameDevices.maps (Eq.symm h) hm
    exact hu i e he

/-- A debug read after a debug write at a mapped address: the byte written at that address, the old byte elsewhere. -/
theorem busRead_busWrite_debug {s : State} (hs : s.Inv) {a : Word} (ha : ¬ s.Unmapped a) (v : Byte) (b : Word) :
    (busRead b true (busWrite a v true s)).1 = if b = a then v else (busRead b true s).1 := by
  obtain ⟨i, d, hm⟩ : ∃ i d, s.Maps a i d := by simpa [State.Unmapped] using ha
  have hsame : SameDevices s (s.setDevByte i (a.toNat - d.range.base) v) := State.setDevByte_sameDevices ..
  have hinv : (busWrite a v true s).Inv := hs.busWrite a v true
  have hwrite : busWrite a v true s = s.setDevByte i (a.toNat - d.range.base) v := busWrite_of_maps hs hm v true
  rw [hwrite] at hinv ⊢
  by_cases hb : s.Unmapped b
  · rw [busRead_of_unmapped ((hsame.unmapped_iff b).mpr hb), busRead_of_unmapped hb, if_neg]
    rintro rfl
    exact ha hb
  · obtain ⟨j, e, hn⟩ : ∃ j e, s.Maps b j e := by simpa [State.Unmapped] using hb
    obtain ⟨e', hn', hrange⟩ := hsame.maps hn
    have hcanonical : s.Canonical i := ⟨d, hm.1, (hs.sound hm.1).1⟩
    rw [busRead_of_maps hinv hn', busRead_of_maps hs hn, hrange]
    refine (State.devByte_setDevByte hcanonical ..).trans ?_
    refine if_congr ⟨?_, ?_⟩ rfl rfl
    · rintro ⟨rfl, hoff⟩
      obtain rfl : e = d := Option.some.inj (hn.1.symm.trans hm.1)
      obtain ⟨-, hlo, -⟩ := hm
      obtain ⟨-, hlo', -⟩ := hn
      exact BitVec.eq_of_toNat_eq (by omega)
    · rintro rfl
      obtain ⟨rfl, rfl⟩ : j = i ∧ e = d := by
        obtain rfl : j = i := hs.layout.unique hn.1 hm.1 hn.2 hm.2
        exact ⟨rfl, Option.some.inj (hn.1.symm.trans hm.1)⟩
      exact ⟨rfl, rfl⟩

/-- After byte writes at mapped addresses, every other address reads as before. -/
theorem busRead_writeBytes_ne {l : List (Word × Byte)} {s : State} (hs : s.Inv) (hl : ∀ w ∈ l, ¬ s.Unmapped w.1)
    {b : Word} (hb : ∀ w ∈ l, b ≠ w.1) : (busRead b true (writeBytes l s)).1 = (busRead b true s).1 := by
  induction l generalizing s with
  | nil => rfl
  | cons w rest ih =>
    obtain ⟨hw, hrest⟩ := List.forall_mem_cons.mp hl
    obtain ⟨hbw, hbrest⟩ := List.forall_mem_cons.mp hb
    have hsame : SameDevices s (busWrite w.1 w.2 true s) := writeBytes_sameDevices [w] s
    rw [writeBytes_cons, ih (hs.busWrite _ _ _) (fun x hx => (hsame.unmapped_iff x.1).not.mpr (hrest x hx)) hbrest,
      busRead_busWrite_debug hs hw, if_neg hbw]

/-- After byte writes at mapped addresses of which no two are the same, each byte written reads back. -/
theorem busRead_writeBytes_mem {l : List (Word × Byte)} {s : State} (hs : s.Inv) (hl : ∀ w ∈ l, ¬ s.Unmapped w.1)
    (hdistinct : l.Pairwise fun x y => x.1 ≠ y.1) {w : Word × Byte} (hw : w ∈ l) :
    (busRead w.1 true (writeBytes l s)).1 = w.2 := by
  induction l generalizing s with
  | nil => cases hw
  | cons x rest ih =>
    obtain ⟨hx, hrest⟩ := List.forall_mem_cons.mp hl
    obtain ⟨hfirst, hlater⟩ := List.pairwise_cons.mp hdistinct
    have hsame : SameDevices s (busWrite x.1 x.2 true s) := writeBytes_sameDevices [x] s
    have hmapped : ∀ y ∈ rest, ¬ (busWrite x.1 x.2 true s).Unmapped y.1 :=
      fun y hy => (hsame.unmapped_iff y.1).not.mpr (hrest y hy)
    rw [writeBytes_cons]
    rcases List.mem_cons.mp hw with rfl | hw
    · rw [busRead_writeBytes_ne (hs.busWrite _ _ _) hmapped hfirst, busRead_busWrite_debug hs hx, if_pos rfl]
    · exact ih (hs.busWrite _ _ _) hmapped hlater hw

theorem mem_dataWrites {a : Word} {data : List Byte} {w : Word × Byte} :
    w ∈ dataWrites a data ↔ ∃ k, ∃ h : k < data.length, w = (a + BitVec.ofNat 16 k, data[k]) := by
  simp only [dataWrites, List.mem_map, Prod.exists, List.mem_zipIdx_iff_getElem?, List.getElem?_eq_some_iff]
  constructor
  · rintro ⟨v, k, ⟨hk, hv⟩, rfl⟩
    exact ⟨k, hk, by rw [hv]⟩
  · rintro ⟨k, hk, rfl⟩
    exact ⟨data[k], k, ⟨hk, rfl⟩, rfl⟩

/-- The addresses of at most 65536 bytes in a row are all different. -/
theorem dataWrites_distinct (a : Word) {data : List Byte} (h : data.length ≤ 65536) :
    (dataWrites a data).Pairwise fun x y => x.1 ≠ y.1 := by
  rw [dataWrites, List.pairwise_map, List.pairwise_iff_getElem]
  intro j k hj hk hjk
  simp only [List.length_zipIdx] at hj hk
  simp only [List.getElem_zipIdx]
  bv_omega

theorem BeginsWithRecord.length_lt {text data rest : List Byte} {a : Word} (h : BeginsWithRecord text a data rest) :
    data.length < 256 := by
  obtain ⟨before, line, -, ⟨hlength, -⟩, -⟩ := h
  exact hlength

/-- Settles O48: the forms by `text_forms`, the effect of a record by `exec_load_record`, its bytes by what a debug read
gives after the writes of its data. -/
theorem loadWritesTheRecord : Obligations.LoadWritesTheRecord := by
  refine ⟨text_forms, fun s hf hp => ⟨fun h => ?_, fun a data rest h => ⟨exec_load_record hf hp h, ?_⟩⟩⟩
  · rw [exec_load hf hp, State.textWrites_of_nothing h, writeBytes_nil]
  · intro hs hrest hmapped
    have hwrites : s.textWrites = dataWrites a data := by
      rw [State.textWrites_of_record h, hrest.loadWrites, List.append_nil]
    have hl : ∀ w ∈ dataWrites a data, ¬ s.Unmapped w.1 := by
      intro w hw
      obtain ⟨k, hk, rfl⟩ := mem_dataWrites.mp hw
      exact hmapped k hk
    have hdistinct := dataWrites_distinct a (data := data) (by have := h.length_lt; omega)
    refine ⟨_, exec_load hf hp, fun k hk => ?_, fun b hb => ?_⟩
    · rw [hwrites]
      exact busRead_writeBytes_mem hs hl hdistinct (mem_dataWrites.mpr ⟨k, hk, rfl⟩)
    · rw [hwrites]
      refine busRead_writeBytes_ne hs hl fun w hw => ?_
      obtain ⟨k, hk, rfl⟩ := mem_dataWrites.mp hw
      exact hb k hk

end Sys2Proof.Machine
end
